-- ==== Sys2Proof/Word.lean ====
section
/-! DEFINITION. The two word sizes of the core (spec/00_scope.md R11). -/

namespace Sys2Proof

/-- A register or a byte on the bus: 8 bits (R11). -/
abbrev Byte := BitVec 8

/-- A bus address, or PC: 16 bits (R11). -/
abbrev Word := BitVec 16

end Sys2Proof
end

