-- ==== Sys2Proof/Syntax.lean ====
section
/-! DEFINITION. The instructions of spec/opcode_table.json.

A row of the table is one byte. Rows of one mnemonic that differ only in the addressing mode are one
constructor with the mode as its argument; the UNMODELLED rows carry their mode slot and the ILLEGAL rows
their byte, which is all that tells such rows apart. WellFormed.lean says which arguments are rows, so that
the well-formed terms are the 256 rows, each once (log entry 9). JMP is two constructors, one for each of its
two formats, and so are the accumulator and memory forms of ASL and ROL, whose schedules differ
(spec/42_shift_group.md R171, R172).

No constructor holds operand bytes: decoding depends on the opcode alone (spec/30_encoding.md R74, R87), and
each operand byte is read from the bus in a later step of its own (spec/20_memory.md R65). -/

namespace Sys2Proof

/-- The five modes of the addressing-mode resolver (spec/30_encoding.md R73, spec/40_core_cycle.md R106). -/
inductive Mode where
  | imm    -- immediate
  | zp     -- zero-page
  | abs    -- absolute
  | absY   -- absolute,Y
  | izx    -- (zero-page,X) indexed-indirect
  deriving DecidableEq, Repr

/-- One constructor per instruction of spec/opcode_table.json. -/
inductive Instr where
  -- accumulator group (spec/41_accumulator_group.md)
  | ora (m : Mode)
  | and (m : Mode)
  | eor (m : Mode)
  | adc (m : Mode)
  | sta (m : Mode)
  | lda (m : Mode)
  | cmp (m : Mode)
  | sbc (m : Mode)
  | nopStaImm
  | unmodelledOra (slot : BitVec 3)
  | unmodelledAnd (slot : BitVec 3)
  | unmodelledEor (slot : BitVec 3)
  | unmodelledAdc (slot : BitVec 3)
  | unmodelledSta (slot : BitVec 3)
  | unmodelledLda (slot : BitVec 3)
  | unmodelledCmp (slot : BitVec 3)
  | unmodelledSbc (slot : BitVec 3)
  | unmodelledAsl (slot : BitVec 3)
  | unmodelledRol (slot : BitVec 3)
  -- shift group (spec/42_shift_group.md)
  | aslA
  | asl (m : Mode)
  | rolA
  | rol (m : Mode)
  -- branches (spec/43_branch.md)
  | bpl
  | bmi
  | bvc
  | bvs
  | bcc
  | bcs
  | bne
  | beq
  -- flag set/clear (spec/44_flag_set_clear.md)
  | clc
  | sec
  | cli
  | sei
  | clv
  | cld
  | sed
  -- stack, subroutine, jump (spec/45_stack_subroutine_jump.md)
  | php
  | plp
  | pha
  | pla
  | jsr
  | rts
  | jmpAbs
  | jmpInd
  -- transfers, increments, decrements (spec/46_transfer_incdec.md)
  | tax
  | txa
  | tay
  | tya
  | inx
  | iny
  | dex
  | dey
  | incA
  | decA
  -- index load, store, compare and BIT (spec/47_index_load_store_compare.md)
  | ldx (m : Mode)
  | ldy (m : Mode)
  | stx (m : Mode)
  | sty (m : Mode)
  | cpx (m : Mode)
  | cpy (m : Mode)
  | bit (m : Mode)
  -- NOP, debug trace, halts (spec/48_misc_halt.md)
  | nop
  | dbg
  | brk
  | illegal (opcode : Byte)
  deriving DecidableEq, Repr

end Sys2Proof
end

