-- ==== Sys2Proof/WellFormed.lean ====
section
/-! DEFINITION. Which terms of Instr are rows of spec/opcode_table.json. -/

namespace Sys2Proof

/-- The slots of a cc = 01 opcode that the resolver does not implement (spec/30_encoding.md R73, R77). -/
def unmodelledGroup1Slot (slot : BitVec 3) : Bool :=
  slot == 0b100#3 || slot == 0b101#3 || slot == 0b111#3

/-- The slots of an ASL or ROL opcode that the resolver does not implement (R77, R78). -/
def unmodelledShiftSlot (slot : BitVec 3) : Bool :=
  slot == 0b101#3 || slot == 0b111#3

/-- The first half of the 127 illegal opcodes, as R80 lists them. -/
def illegalOpcodesLow : List Byte :=
  [0x03, 0x04, 0x07, 0x0B, 0x0C, 0x0F, 0x12, 0x13, 0x14, 0x17, 0x1B, 0x1C, 0x1F, 0x22, 0x23, 0x27] ++
  [0x2B, 0x2F, 0x32, 0x33, 0x34, 0x37, 0x3B, 0x3C, 0x3F, 0x40, 0x42, 0x43, 0x44, 0x46, 0x47, 0x4A] ++
  [0x4B, 0x4E, 0x4F, 0x52, 0x53, 0x54, 0x56, 0x57, 0x5A, 0x5B, 0x5C, 0x5E, 0x5F, 0x62, 0x63, 0x64] ++
  [0x66, 0x67, 0x6A, 0x6B, 0x6E, 0x6F, 0x72, 0x73, 0x74, 0x76, 0x77, 0x7A, 0x7B, 0x7C, 0x7E, 0x7F]

/-- The second half of the 127 illegal opcodes, as R80 lists them. -/
def illegalOpcodesHigh : List Byte :=
  [0x80, 0x82, 0x83, 0x87, 0x8B, 0x8F, 0x92, 0x93, 0x94, 0x96, 0x97, 0x9A, 0x9B, 0x9C, 0x9E, 0x9F] ++
  [0xA3, 0xA7, 0xAB, 0xAF, 0xB2, 0xB3, 0xB4, 0xB6, 0xB7, 0xBA, 0xBB, 0xBC, 0xBF, 0xC2, 0xC3, 0xC6] ++
  [0xC7, 0xCB, 0xCE, 0xCF, 0xD2, 0xD3, 0xD4, 0xD6, 0xD7, 0xDA, 0xDB, 0xDC, 0xDE, 0xDF, 0xE2, 0xE3] ++
  [0xE6, 0xE7, 0xEB, 0xEE, 0xEF, 0xF2, 0xF3, 0xF4, 0xF6, 0xF7, 0xFA, 0xFB, 0xFC, 0xFE, 0xFF]

/-- The illegal opcodes of R80. -/
def illegalOpcodes : List Byte := illegalOpcodesLow ++ illegalOpcodesHigh

/-- The modes of a zero-page or absolute operand. -/
def Mode.isZpOrAbs : Mode → Bool
  | .zp | .abs => true
  | _ => false

/-- The modes of an immediate, zero-page or absolute operand. -/
def Mode.isImmZpOrAbs : Mode → Bool
  | .imm | .zp | .abs => true
  | _ => false

/-- A term of Instr that is a row of the opcode table: its mode is one the row's mnemonic has
(spec/30_encoding.md R73, R78, R79; spec/47_index_load_store_compare.md R235 to R243), its slot is one the
resolver lacks (R77), its byte is an illegal opcode (R80). -/
def Instr.wf : Instr → Bool
  | .sta m => m != .imm
  | .unmodelledOra slot | .unmodelledAnd slot | .unmodelledEor slot | .unmodelledAdc slot => unmodelledGroup1Slot slot
  | .unmodelledSta slot | .unmodelledLda slot | .unmodelledCmp slot | .unmodelledSbc slot => unmodelledGroup1Slot slot
  | .unmodelledAsl slot | .unmodelledRol slot => unmodelledShiftSlot slot
  | .asl m | .rol m => m.isZpOrAbs
  | .ldx m => m != .izx
  | .ldy m | .cpx m | .cpy m => m.isImmZpOrAbs
  | .stx m | .sty m | .bit m => m.isZpOrAbs
  | .illegal opcode => illegalOpcodes.contains opcode
  | .ora _ | .and _ | .eor _ | .adc _ | .lda _ | .cmp _ | .sbc _ => true
  | .nopStaImm | .aslA | .rolA => true
  | .bpl | .bmi | .bvc | .bvs | .bcc | .bcs | .bne | .beq => true
  | .clc | .sec | .cli | .sei | .clv | .cld | .sed => true
  | .php | .plp | .pha | .pla | .jsr | .rts | .jmpAbs | .jmpInd => true
  | .tax | .txa | .tay | .tya | .inx | .iny | .dex | .dey | .incA | .decA => true
  | .nop | .dbg | .brk => true

end Sys2Proof
end

