-- ==== Sys2Proof/Decode.lean ====
section
/-! DEFINITION. The instruction_decoder and the dispatcher's routing (spec/30_encoding.md), the encoder, and the
sizes and call counts of the rows. -/

namespace Sys2Proof

/-- The fields of an opcode byte (R70). -/
def opcodeAaa (b : Byte) : BitVec 3 := b.extractLsb' 5 3
/-- IR[4:2] (R70). -/
def opcodeBbb (b : Byte) : BitVec 3 := b.extractLsb' 2 3
/-- IR[1:0] (R70). -/
def opcodeCc (b : Byte) : BitVec 2 := b.extractLsb' 0 2

/-- The mode slots of the accumulator group that the resolver implements (R73). -/
def slotMode (bbb : BitVec 3) : Option Mode :=
  if bbb = 0b000#3 then some .izx
  else if bbb = 0b001#3 then some .zp
  else if bbb = 0b010#3 then some .imm
  else if bbb = 0b011#3 then some .abs
  else if bbb = 0b110#3 then some .absY
  else none

/-- The accumulator group's instruction for a mode the resolver has (R76); the STA immediate slot is the
explicit no-op 0x89 (R82). -/
def group1Instr (aaa : BitVec 3) (m : Mode) : Instr :=
  if aaa = 0b000#3 then .ora m
  else if aaa = 0b001#3 then .and m
  else if aaa = 0b010#3 then .eor m
  else if aaa = 0b011#3 then .adc m
  else if aaa = 0b100#3 then (if m = .imm then .nopStaImm else .sta m)
  else if aaa = 0b101#3 then .lda m
  else if aaa = 0b110#3 then .cmp m
  else .sbc m

/-- The accumulator group's unmodelled-mode opcodes (R77). -/
def group1Unmodelled (aaa slot : BitVec 3) : Instr :=
  if aaa = 0b000#3 then .unmodelledOra slot
  else if aaa = 0b001#3 then .unmodelledAnd slot
  else if aaa = 0b010#3 then .unmodelledEor slot
  else if aaa = 0b011#3 then .unmodelledAdc slot
  else if aaa = 0b100#3 then .unmodelledSta slot
  else if aaa = 0b101#3 then .unmodelledLda slot
  else if aaa = 0b110#3 then .unmodelledCmp slot
  else .unmodelledSbc slot

/-- Case 1 of R75: cc = 01. -/
def decodeGroup1 (aaa bbb : BitVec 3) : Instr :=
  match slotMode bbb with
  | some m => group1Instr aaa m
  | none => group1Unmodelled aaa bbb

/-- The shift group's slots (R75 case 2, R78). -/
def isShiftSlot (bbb : BitVec 3) : Bool :=
  bbb == 0b001#3 || bbb == 0b010#3 || bbb == 0b011#3 || bbb == 0b101#3 || bbb == 0b111#3

/-- Case 2 of R75: cc = 10, aaa 000 (ASL) or 001 (ROL), bbb a shift slot. -/
def decodeShift (aaa bbb : BitVec 3) : Instr :=
  if aaa = 0b000#3 then
    (if bbb = 0b001#3 then .asl .zp else if bbb = 0b010#3 then .aslA else if bbb = 0b011#3 then .asl .abs
     else .unmodelledAsl bbb)
  else
    (if bbb = 0b001#3 then .rol .zp else if bbb = 0b010#3 then .rolA else if bbb = 0b011#3 then .rol .abs
     else .unmodelledRol bbb)

/-- The special table by literal IR value (R79). -/
def specialTable : List (Byte × Instr) :=
  [(0x10, .bpl), (0x30, .bmi), (0x50, .bvc), (0x70, .bvs), (0x90, .bcc), (0xB0, .bcs), (0xD0, .bne), (0xF0, .beq)] ++
  [(0x18, .clc), (0x38, .sec), (0x58, .cli), (0x78, .sei), (0xB8, .clv), (0xD8, .cld), (0xF8, .sed)] ++
  [(0x08, .php), (0x28, .plp), (0x48, .pha), (0x68, .pla)] ++
  [(0xAA, .tax), (0x8A, .txa), (0xA8, .tay), (0x98, .tya)] ++
  [(0xE8, .inx), (0xC8, .iny), (0xCA, .dex), (0x88, .dey), (0x1A, .incA), (0x3A, .decA)] ++
  [(0xA2, .ldx .imm), (0xA6, .ldx .zp), (0xAE, .ldx .abs), (0xBE, .ldx .absY), (0x86, .stx .zp), (0x8E, .stx .abs)] ++
  [(0xA0, .ldy .imm), (0xA4, .ldy .zp), (0xAC, .ldy .abs), (0x84, .sty .zp), (0x8C, .sty .abs)] ++
  [(0xE0, .cpx .imm), (0xE4, .cpx .zp), (0xEC, .cpx .abs), (0xC0, .cpy .imm), (0xC4, .cpy .zp), (0xCC, .cpy .abs)] ++
  [(0x24, .bit .zp), (0x2C, .bit .abs)] ++
  [(0x4C, .jmpAbs), (0x6C, .jmpInd), (0x20, .jsr), (0x60, .rts)] ++
  [(0xEA, .nop), (0x02, .dbg), (0x00, .brk)]

/-- The dispatcher's routing (R75), by the first case that applies; total on all 256 bytes (R87). -/
def decodeOpcode (b : Byte) : Instr :=
  if opcodeCc b = 0b01#2 then decodeGroup1 (opcodeAaa b) (opcodeBbb b)
  else if opcodeCc b = 0b10#2 ∧ (opcodeAaa b = 0b000#3 ∨ opcodeAaa b = 0b001#3) ∧ isShiftSlot (opcodeBbb b) = true then
    decodeShift (opcodeAaa b) (opcodeBbb b)
  else match specialTable.lookup b with
    | some i => i
    | none => .illegal b

/-- Why a list of bytes has no instruction at its head. Every byte decodes (R87), so nothing else can go wrong. -/
inductive DecodeError where
  | noOpcodeByte   -- the list is empty
  deriving DecidableEq, Repr

/-- The instruction at the head of a list of bytes, and the bytes after its opcode (the operand bytes, which the
handlers read one by one, and what follows them). -/
def decodeBytes : List Byte → Except DecodeError (Instr × List Byte)
  | [] => .error .noOpcodeByte
  | b :: rest => .ok (decodeOpcode b, rest)

/-- The first n bytes of a number, least significant first: the order in which the core fetches them. -/
def wordBytes : Nat → Nat → List Byte
  | 0, _ => []
  | n + 1, w => BitVec.ofNat 8 w :: wordBytes n (w / 256)

/-- The bytes a table word stands for: its own, then operand bytes of zero up to the longest instruction
(three bytes, R71). -/
def tableWordBytes (nbits w : Nat) : List Byte :=
  match wordBytes (nbits / 8) w with
  | [] => []
  | b :: rest => (b :: rest) ++ List.replicate (2 - rest.length) 0

/-- What the decoder reads from an instruction whose bits are w, numbered as spec/opcode_table.json numbers them. -/
def decodeTableWord (nbits w : Nat) : Option Instr :=
  match decodeBytes (tableWordBytes nbits w) with
  | .ok (i, _) => some i
  | .error _ => none

/-! The encoder, from the encoding rules: fields for the regular groups, the bit forms of R83, R84 and R85 for
branches, flag and stack opcodes, literal values for the rest. -/

/-- The slot of a mode in the accumulator group (R73). -/
def modeSlot : Mode → BitVec 3
  | .izx => 0b000#3
  | .zp => 0b001#3
  | .imm => 0b010#3
  | .abs => 0b011#3
  | .absY => 0b110#3

/-- An opcode from its three fields (R70). -/
def opcodeOf (aaa bbb : BitVec 3) (cc : BitVec 2) : Byte := (aaa ++ bbb) ++ cc

/-- The branch opcode ffp10000 (R83). -/
def branchOpcode (ff : BitVec 2) (p : BitVec 1) : Byte := (ff ++ p) ++ 0b10000#5

/-- The flag opcode ffv11000 (R84). -/
def flagOpcode (ff : BitVec 2) (v : BitVec 1) : Byte := (ff ++ v) ++ 0b11000#5

/-- The stack opcode 0ab01000 (R85). -/
def stackOpcode (a b : BitVec 1) : Byte := ((0b0#1 ++ a) ++ b) ++ 0b01000#5

/-- The opcode byte of an instruction: the inverse of decodeOpcode on well-formed instructions. -/
def encode : Instr → Byte
  | .ora m => opcodeOf 0b000 (modeSlot m) 0b01
  | .and m => opcodeOf 0b001 (modeSlot m) 0b01
  | .eor m => opcodeOf 0b010 (modeSlot m) 0b01
  | .adc m => opcodeOf 0b011 (modeSlot m) 0b01
  | .sta m => opcodeOf 0b100 (modeSlot m) 0b01
  | .lda m => opcodeOf 0b101 (modeSlot m) 0b01
  | .cmp m => opcodeOf 0b110 (modeSlot m) 0b01
  | .sbc m => opcodeOf 0b111 (modeSlot m) 0b01
  | .nopStaImm => 0x89
  | .unmodelledOra slot => opcodeOf 0b000 slot 0b01
  | .unmodelledAnd slot => opcodeOf 0b001 slot 0b01
  | .unmodelledEor slot => opcodeOf 0b010 slot 0b01
  | .unmodelledAdc slot => opcodeOf 0b011 slot 0b01
  | .unmodelledSta slot => opcodeOf 0b100 slot 0b01
  | .unmodelledLda slot => opcodeOf 0b101 slot 0b01
  | .unmodelledCmp slot => opcodeOf 0b110 slot 0b01
  | .unmodelledSbc slot => opcodeOf 0b111 slot 0b01
  | .unmodelledAsl slot => opcodeOf 0b000 slot 0b10
  | .unmodelledRol slot => opcodeOf 0b001 slot 0b10
  | .aslA => opcodeOf 0b000 0b010 0b10
  | .asl m => opcodeOf 0b000 (modeSlot m) 0b10
  | .rolA => opcodeOf 0b001 0b010 0b10
  | .rol m => opcodeOf 0b001 (modeSlot m) 0b10
  | .bpl => branchOpcode 0b00 0
  | .bmi => branchOpcode 0b00 1
  | .bvc => branchOpcode 0b01 0
  | .bvs => branchOpcode 0b01 1
  | .bcc => branchOpcode 0b10 0
  | .bcs => branchOpcode 0b10 1
  | .bne => branchOpcode 0b11 0
  | .beq => branchOpcode 0b11 1
  | .clc => flagOpcode 0b00 0
  | .sec => flagOpcode 0b00 1
  | .cli => flagOpcode 0b01 0
  | .sei => flagOpcode 0b01 1
  | .clv => flagOpcode 0b10 1
  | .cld => flagOpcode 0b11 0
  | .sed => flagOpcode 0b11 1
  | .php => stackOpcode 0 0
  | .plp => stackOpcode 0 1
  | .pha => stackOpcode 1 0
  | .pla => stackOpcode 1 1
  | .jsr => 0x20
  | .rts => 0x60
  | .jmpAbs => 0x4C
  | .jmpInd => 0x6C
  | .tax => 0xAA
  | .txa => 0x8A
  | .tay => 0xA8
  | .tya => 0x98
  | .inx => 0xE8
  | .iny => 0xC8
  | .dex => 0xCA
  | .dey => 0x88
  | .incA => 0x1A
  | .decA => 0x3A
  | .ldx .imm => 0xA2
  | .ldx .zp => 0xA6
  | .ldx .abs => 0xAE
  | .ldx .absY => 0xBE
  | .ldx .izx => 0x00
  | .ldy .imm => 0xA0
  | .ldy .zp => 0xA4
  | .ldy .abs => 0xAC
  | .ldy _ => 0x00
  | .stx .zp => 0x86
  | .stx .abs => 0x8E
  | .stx _ => 0x00
  | .sty .zp => 0x84
  | .sty .abs => 0x8C
  | .sty _ => 0x00
  | .cpx .imm => 0xE0
  | .cpx .zp => 0xE4
  | .cpx .abs => 0xEC
  | .cpx _ => 0x00
  | .cpy .imm => 0xC0
  | .cpy .zp => 0xC4
  | .cpy .abs => 0xCC
  | .cpy _ => 0x00
  | .bit .zp => 0x24
  | .bit .abs => 0x2C
  | .bit _ => 0x00
  | .nop => 0xEA
  | .dbg => 0x02
  | .brk => 0x00
  | .illegal opcode => opcode

/-- The number of operand bytes of a mode (R71). -/
def Mode.operandBytes : Mode → Nat
  | .imm | .zp | .izx => 1
  | .abs | .absY => 2

/-- The length of an instruction in bytes (R71, R74); an unmodelled-mode or illegal opcode has length 1. -/
def Instr.length : Instr → Nat
  | .ora m | .and m | .eor m | .adc m | .sta m | .lda m | .cmp m | .sbc m => 1 + m.operandBytes
  | .asl m | .rol m => 1 + m.operandBytes
  | .ldx m | .ldy m | .stx m | .sty m | .cpx m | .cpy m | .bit m => 1 + m.operandBytes
  | .nopStaImm => 2
  | .bpl | .bmi | .bvc | .bvs | .bcc | .bcs | .bne | .beq => 2
  | .jsr | .jmpAbs | .jmpInd => 3
  | .unmodelledOra _ | .unmodelledAnd _ | .unmodelledEor _ | .unmodelledAdc _ => 1
  | .unmodelledSta _ | .unmodelledLda _ | .unmodelledCmp _ | .unmodelledSbc _ => 1
  | .unmodelledAsl _ | .unmodelledRol _ | .aslA | .rolA => 1
  | .clc | .sec | .cli | .sei | .clv | .cld | .sed => 1
  | .php | .plp | .pha | .pla | .rts => 1
  | .tax | .txa | .tay | .tya | .inx | .iny | .dex | .dey | .incA | .decA => 1
  | .nop | .dbg | .brk | .illegal _ => 1

/-- The calls of a read-class or store-class instruction (spec/40_core_cycle.md R116). -/
def Mode.calls : Mode → Nat
  | .imm => 2
  | .zp => 3
  | .abs | .absY => 4
  | .izx => 5

/-- The calls of an instruction, its fetch call counted (spec/70_reset_and_hazards.md R340); for a branch, those of a
branch that is not taken (spec/43_branch.md R181 gives the others). -/
def Instr.calls : Instr → Nat
  | .ora m | .and m | .eor m | .adc m | .sta m | .lda m | .cmp m | .sbc m => m.calls
  | .ldx m | .ldy m | .stx m | .sty m | .cpx m | .cpy m | .bit m => m.calls
  | .asl m | .rol m => m.calls + 2
  | .jsr => 5
  | .rts => 4
  | .jmpAbs => 3
  | .jmpInd => 6
  | .nopStaImm | .aslA | .rolA => 2
  | .unmodelledOra _ | .unmodelledAnd _ | .unmodelledEor _ | .unmodelledAdc _ => 2
  | .unmodelledSta _ | .unmodelledLda _ | .unmodelledCmp _ | .unmodelledSbc _ => 2
  | .unmodelledAsl _ | .unmodelledRol _ => 2
  | .bpl | .bmi | .bvc | .bvs | .bcc | .bcs | .bne | .beq => 2
  | .clc | .sec | .cli | .sei | .clv | .cld | .sed => 2
  | .php | .plp | .pha | .pla => 2
  | .tax | .txa | .tay | .tya | .inx | .iny | .dex | .dey | .incA | .decA => 2
  | .nop | .dbg | .brk | .illegal _ => 2

/-- The offset byte an assembler gives a branch at address `source` to a label `target` (R88): the distance from the
address after the branch, when it lies in -128 to 127. -/
def branchOffset (source target : Word) : Option Byte :=
  let d := target - (source + 2)
  if -128 ≤ d.toInt ∧ d.toInt ≤ 127 then some (d.setWidth 8) else none

end Sys2Proof
end

