-- ==== Sys2Proof/Config.lean ====
section
/-! DEFINITION. What an implementation of the core fixes: the parameters of spec/00_scope.md R12.
They are plain data that State carries unchanged, so that a statement about every state is a statement
about every value of them (spec/92_eei_decisions.md D30: "claims should quantify over RESET_DELAY"). -/

namespace Sys2Proof

/-- UNMODELLED_MODE_POLICY (R12, D6): what an opcode does whose addressing mode the resolver lacks. -/
inductive UnmodelledPolicy where
  | nop1   -- the decided policy: one byte, two calls, no effect
  | halt   -- treat as an illegal opcode (R259)
  | hang   -- the execute step makes no progress
  deriving DecidableEq, Repr

/-- PLP_IGN_POLICY (R12, D13): what PLP leaves in P bit 5. -/
inductive PlpIgnPolicy where
  | forceOne    -- the decided policy
  | fromStack
  deriving DecidableEq, Repr

/-- The parameters of R12. -/
structure Config where
  /-- SP_RESET: the value reset gives SP. -/
  spReset : Byte
  /-- RESET_DELAY: the value reset gives reset_delay. -/
  resetDelay : Byte
  /-- ICOUNT_WIDTH: the width of instruction_count. -/
  icountWidth : Nat
  /-- UNMODELLED_MODE_POLICY. -/
  unmodelled : UnmodelledPolicy
  /-- PLP_IGN_POLICY. -/
  plpIgn : PlpIgnPolicy
  deriving DecidableEq, Repr

/-- The limits R12 sets: RESET_DELAY is 2 to 255, ICOUNT_WIDTH at least 16. -/
abbrev Config.Wf (c : Config) : Prop := 2 ≤ c.resetDelay.toNat ∧ 16 ≤ c.icountWidth

/-- The parameters State.reset takes: the spec's sample values for the open ones and its decided
policies. DESIGN CHOICE, unsafe (log entries 3 and 4): R12 leaves the first three open. -/
def Config.sample : Config where
  spReset := 0xFD
  resetDelay := 7
  icountWidth := 64
  unmodelled := .nop1
  plpIgn := .forceOne

end Sys2Proof
end

