-- ==== Sys2Proof/Machine/State.lean ====
section
/-! DEFINITION. The state of the core (spec/10_state.md R20), its implementation parameters, and the host's side of
the bus port and of the event channel. -/

namespace Sys2Proof.Machine

/-- The scheduler phase `cycle`, as the phase enumeration R105 allows: 0 is idle ("ready to fetch"), 1 to 5 are progress
values, 0x80 to 0x82 are Operate, Writeback1 and Writeback2 (spec/10_state.md R33). `Phase.code` gives the observable
byte. Log entry 2. -/
inductive Phase where
  | idle
  | c1
  | c2
  | c3
  | c4
  | c5
  | operate
  | writeback1
  | writeback2
  deriving DecidableEq, Repr

/-- The two events of the diagnostic channel (spec/60_exceptions.md R316). -/
inductive Event where
  /-- DBG (spec/48_misc_halt.md R257). -/
  | trace (a x y p ir sp : Byte) (pc : Word) (count : Nat)
  /-- The illegal-opcode trap (R259). -/
  | illegalOpcode (opcode : Byte) (address : Word)
  deriving DecidableEq, Repr

/-- One access of the bus port (spec/00_scope.md R7): the byte the host answered, or the byte the host was sent. -/
inductive BusAccess where
  | read (address : Word) (value : Byte)
  | write (address : Word) (value : Byte)
  deriving DecidableEq, Repr

/-- The host's memory: the listed bytes, by strictly rising address, none of them 0x00, which is what an unlisted
address reads as. `Memory.wf` in Ops.lean says so. Log entry 6. -/
abbrev Memory := List Host.Cell

/-- Why the machine stops with a fault. -/
inductive Fault where
  /-- Raised by a meaning whose handler has no part for the current `cycle` and found_address: the malformed
  addressing/cycle state of spec/93_implementation_defined.md I4, which has no step ("stuck"). No rule produces it.
  Safe: the model stops where the spec gives no step (log entry 10). -/
  | malformedPhase
  deriving DecidableEq, Repr

/-- Why the machine refuses. -/
inductive Refusal where
  /-- Raised by an arm of exec that has no meaning yet; no arm of this model is one. Safe. -/
  | notModelled (mnemonic : String)
  /-- Raised by step and by hostReset when no read or no write capability has ever been bound
  (spec/92_eei_decisions.md D41, spec/20_memory.md R67): the spec refuses. Safe (log entry 8). -/
  | busUnbound
  deriving DecidableEq, Repr

/-- The machine. The first twenty fields are R20's, in its order. -/
structure State where
  /-- The accumulator (R21). -/
  a : Byte
  /-- The X index register (R22). -/
  x : Byte
  /-- The Y index register (R23). -/
  y : Byte
  /-- The status register, laid out as R24 says. -/
  p : Byte
  /-- The program counter (R30). -/
  pc : Word
  /-- The stack pointer (R31). -/
  sp : Byte
  /-- The instruction register (R32). -/
  ir : Byte
  /-- The scheduler phase `cycle` (R33). -/
  phase : Phase
  /-- The reset countdown (R34). -/
  resetDelay : Byte
  /-- IR[7:5] (R35). -/
  aaa : BitVec 3
  /-- IR[4:2] (R35). -/
  bbb : BitVec 3
  /-- IR[1:0] (R35). -/
  cc : BitVec 2
  /-- Whether the resolver has produced a usable address (R36). -/
  foundAddress : Bool
  /-- The effective address, or the jump target being assembled (R37). -/
  accessAddress : Word
  /-- The pointer address of (zp,X) and of JMP indirect (R38). -/
  indirectAddress : Word
  /-- The base of a branch's displacement; JSR's return address minus one (R39). -/
  oldPc : Word
  /-- The signed branch displacement (R40). -/
  offset : Byte
  /-- The operand byte, and the scratch byte of a read-modify-write (R41). -/
  compareOperand : Byte
  /-- The fetch counter, modulo 2^ICOUNT_WIDTH (R42). -/
  instructionCount : Nat
  /-- False when halted (R43). -/
  isRunning : Bool
  /-- The implementation's parameters (spec/00_scope.md R12), constant while the machine runs. -/
  cfg : Config
  /-- A read capability has been bound (R43). -/
  readBound : Bool
  /-- A write capability has been bound (R43). -/
  writeBound : Bool
  /-- The host's memory (spec/20_memory.md R50, R52). -/
  mem : Memory
  /-- What the host answers to the reads to come, the next first: `some b` is the answer b, `none` (and the end of the
  list) the byte its memory holds. The oracle of R52; the model's own field (log entry 5). -/
  answers : List (Option Byte)
  /-- Every access of the bus port, newest first; the model's own field (log entry 7). -/
  busLog : List BusAccess
  /-- Every event emitted on the diagnostic channel, newest first; the model's own field (log entry 7). -/
  events : List Event
  deriving DecidableEq, Repr

/-- A constructed core that was never reset (R46): every field of R20 is 0, it is not running, and no bus is bound. -/
def State.constructed (cfg : Config) : State where
  a := 0
  x := 0
  y := 0
  p := 0
  pc := 0
  sp := 0
  ir := 0
  phase := .idle
  resetDelay := 0
  aaa := 0
  bbb := 0
  cc := 0
  foundAddress := false
  accessAddress := 0
  indirectAddress := 0
  oldPc := 0
  offset := 0
  compareOperand := 0
  instructionCount := 0
  isRunning := false
  cfg := cfg
  readBound := false
  writeBound := false
  mem := []
  answers := []
  busLog := []
  events := []

/-- The machine right after the first `reset(read, write)` of a constructed core (R47, spec/70_reset_and_hazards.md R330),
with the sample parameters. SP and reset_delay are the parameters' values: DESIGN CHOICE, unsafe (log entry 3). -/
def State.reset : State where
  a := 0
  x := 0
  y := 0
  p := 0x20
  pc := 0xFFFC
  sp := Config.sample.spReset
  ir := 0
  phase := .idle
  resetDelay := Config.sample.resetDelay
  aaa := 0
  bbb := 0
  cc := 0
  foundAddress := false
  accessAddress := 0
  indirectAddress := 0
  oldPc := 0
  offset := 0
  compareOperand := 0
  instructionCount := 0
  isRunning := true
  cfg := Config.sample
  readBound := true
  writeBound := true
  mem := []
  answers := []
  busLog := []
  events := []

end Sys2Proof.Machine
end

