-- ==== Sys2Proof/Machine/Bits.lean ====
section
/-! DEFINITION. The byte order of a 16-bit quantity (spec/20_memory.md R55), extension (spec/00_scope.md R13), and the
observable byte of the scheduler phase (spec/10_state.md R33). -/

namespace Sys2Proof.Machine

/-- v[7:0]. -/
def lowByte (v : Word) : Byte := v.setWidth 8

/-- v[15:8]. -/
def highByte (v : Word) : Byte := v.extractLsb' 8 8

/-- The concatenation of a high and a low byte, as R13 writes it. -/
def mkWord (h l : Byte) : Word := h ++ l

/-- A word with its low half replaced; the high half is unchanged (spec/40_core_cycle.md R109). -/
def setLow (v : Word) (l : Byte) : Word := mkWord (highByte v) l

/-- A word with its high half replaced. -/
def setHigh (v : Word) (h : Byte) : Word := mkWord h (lowByte v)

/-- zext_16. -/
def zext16 (b : Byte) : Word := b.setWidth 16

/-- sext_16. -/
def sext16 (b : Byte) : Word := b.signExtend 16

/-- The observable value of `cycle` (R33, R105). -/
def phaseCode : Phase → Byte
  | .idle => 0x00
  | .c1 => 0x01
  | .c2 => 0x02
  | .c3 => 0x03
  | .c4 => 0x04
  | .c5 => 0x05
  | .operate => 0x80
  | .writeback1 => 0x81
  | .writeback2 => 0x82

/-- The field `cycle` as the host reads it (R6, R33). -/
def cycle (s : State) : Byte := phaseCode s.phase

end Sys2Proof.Machine
end

