-- ==== Sys2Proof/Machine/Flags.lean ====
section
/-! DEFINITION. The status register P (spec/10_state.md R24) and the flag logic (spec/40_core_cycle.md R117 to R125).
Every function is pure (R117). -/

namespace Sys2Proof.Machine

/-- The bits of P (R24). -/
inductive Flag where
  | car
  | zer
  | ire
  | dec
  | brk
  | ign
  | ovr
  | neg
  deriving DecidableEq, Repr

/-- The bit number of a flag (R24). -/
def flagBit : Flag → Nat
  | .car => 0
  | .zer => 1
  | .ire => 2
  | .dec => 3
  | .brk => 4
  | .ign => 5
  | .ovr => 6
  | .neg => 7

/-- The mask of a flag (R24). -/
def flagMask (f : Flag) : Byte := 1#8 <<< flagBit f

/-- One bit of P. -/
def getFlag (f : Flag) (p : Byte) : Bool := p.getLsbD (flagBit f)

/-- P with one bit written, the others unchanged. -/
def setFlag (f : Flag) (v : Bool) (p : Byte) : Byte :=
  if v then p ||| flagMask f else p &&& ~~~(flagMask f)

/-- `set_NZ(result)` (R120): ZER iff the result is 0, NEG its bit 7, nothing else. -/
def setNZ (r : Byte) (p : Byte) : Byte := setFlag .neg r.msb (setFlag .zer (r == 0) p)

/-- `compare(register, operand)` (R121): P after it. -/
def compareFlags (r m : Byte) (p : Byte) : Byte :=
  setFlag .neg (r - m).msb (setFlag .car (decide (m.toNat ≤ r.toNat)) (setFlag .zer (r - m == 0) p))

/-- The 9-bit sum of add8 (R122). -/
def addSum (a m : Byte) (p : Byte) : BitVec 9 :=
  a.setWidth 9 + m.setWidth 9 + (BitVec.ofBool (getFlag .car p)).setWidth 9

/-- The result of add8 (R122). -/
def add8 (a m : Byte) (p : Byte) : Byte := (addSum a m p).setWidth 8

/-- P after add8 (R122): CAR is bit 8 of the sum, OVR says the operands have one sign and the result the other,
then set_NZ. DEC is not read (spec/41_accumulator_group.md R151). -/
def add8Flags (a m : Byte) (p : Byte) : Byte :=
  let r := add8 a m p
  setNZ r (setFlag .ovr ((a ^^^ r) &&& (m ^^^ r)).msb (setFlag .car ((addSum a m p).getLsbD 8) p))

/-- The result of sub8 (R123): add8 of the complement. -/
def sub8 (a m : Byte) (p : Byte) : Byte := add8 a (~~~m) p

/-- P after sub8 (R123). -/
def sub8Flags (a m : Byte) (p : Byte) : Byte := add8Flags a (~~~m) p

/-- The result of asl8 (R124). -/
def asl8 (v : Byte) : Byte := v <<< 1

/-- P after asl8 (R124). -/
def asl8Flags (v : Byte) (p : Byte) : Byte := setNZ (asl8 v) (setFlag .car v.msb p)

/-- The result of rol8 (R124): the old carry goes into bit 0. -/
def rol8 (v : Byte) (p : Byte) : Byte := (v <<< 1) ||| (BitVec.ofBool (getFlag .car p)).setWidth 8

/-- P after rol8 (R124). -/
def rol8Flags (v : Byte) (p : Byte) : Byte := setNZ (rol8 v p) (setFlag .car v.msb p)

/-- P after `bit_test(a, m)` (R125). -/
def bitTestFlags (a m : Byte) (p : Byte) : Byte :=
  setFlag .ovr (m.getLsbD 6) (setFlag .neg (m.getLsbD 7) (setFlag .zer (a &&& m == 0) p))

/-- The byte PHP pushes (spec/45_stack_subroutine_jump.md R201): P with BRK set. -/
def phpByte (p : Byte) : Byte := p ||| 0x10

/-- P after PLP pulls a byte (R202): BRK cleared, and IGN as PLP_IGN_POLICY says. -/
def plpFlags (policy : PlpIgnPolicy) (v : Byte) : Byte :=
  match policy with
  | .forceOne => (v &&& ~~~0x10#8) ||| 0x20
  | .fromStack => v &&& ~~~0x10#8

end Sys2Proof.Machine
end

