-- ==== Sys2Proof/Machine/Ops.lean ====
section
/-! DEFINITION. The named operations: the host's memory, the bus port, the stack, the scheduler's fetch, completion, halt
and reset countdown, and one call of the machine. -/

namespace Sys2Proof.Machine

/-! ## The host's memory (spec/20_memory.md R50, R52) -/

/-- What an address that is not listed reads as: 0x00, the RAM host of R52. DESIGN CHOICE, unsafe (log entry 6). -/
def unlistedByte : Byte := 0

/-- One byte of the host's memory. -/
def readByte : Memory → Nat → Byte
  | [], _ => unlistedByte
  | (k, v) :: rest, addr => if k = addr then v else readByte rest addr

/-- The memory after one byte is written; canonical memories stay canonical. -/
def writeByte : Memory → Nat → Byte → Memory
  | [], addr, v => if v = unlistedByte then [] else [(addr, v)]
  | (k, w) :: rest, addr, v =>
    if addr < k then
      (if v = unlistedByte then (k, w) :: rest else (addr, v) :: (k, w) :: rest)
    else if addr = k then
      (if v = unlistedByte then rest else (addr, v) :: rest)
    else (k, w) :: writeByte rest addr v

/-- The canonical form: addresses below 65536 and strictly rising, no entry equal to what an unlisted address
reads as. -/
def Memory.wf : Memory → Bool
  | [] => true
  | (k, v) :: rest => decide (k < 65536) && (v != unlistedByte) && rest.all (fun c => decide (k < c.1)) && Memory.wf rest

/-! ## The bus port (spec/00_scope.md R7, R15; spec/20_memory.md R51, R52) -/

/-- The byte the host answers to the next read, at this address: its next answer if it has one in hand, else the byte
its memory holds (R52). -/
def busAnswer (s : State) (addr : Word) : Byte :=
  match s.answers with
  | some b :: _ => b
  | _ => readByte s.mem addr.toNat

/-- The state after one bus read: the host has used one answer, and the access is logged. -/
def busRead (s : State) (addr : Word) : State :=
  { s with
    answers := s.answers.tail
    busLog := .read addr (busAnswer s addr) :: s.busLog }

/-- The state after one bus write: the host's memory holds the byte, and the access is logged. -/
def busWrite (s : State) (addr : Word) (v : Byte) : State :=
  { s with
    mem := writeByte s.mem addr.toNat v
    busLog := .write addr v :: s.busLog }

/-- The byte at PC: an opcode or an operand byte. -/
def pcByte (s : State) : Byte := busAnswer s s.pc

/-- The state after the byte at PC is read and PC advanced by 1 modulo 65536 (R30). -/
def takePcByte (s : State) : State := { busRead s s.pc with pc := s.pc + 1 }

/-! ## The stack (spec/00_scope.md R17, spec/10_state.md R31) -/

/-- The address of the stack byte SP designates. -/
def stackAddr (sp : Byte) : Word := 0x0100 + zext16 sp

/-- `push(v)`: write, then decrement SP modulo 256. -/
def push (s : State) (v : Byte) : State := { busWrite s (stackAddr s.sp) v with sp := s.sp - 1 }

/-- The byte `pull()` returns: SP is incremented first. -/
def pullByte (s : State) : Byte := busAnswer s (stackAddr (s.sp + 1))

/-- The state after `pull()`. -/
def pulled (s : State) : State := { busRead s (stackAddr (s.sp + 1)) with sp := s.sp + 1 }

/-! ## Control primitives (spec/00_scope.md R16) -/

/-- `next(c)`: the instruction continues in the next call at this phase. -/
def goto (c : Phase) (s : State) : State := { s with phase := c }

/-- `done`: the instruction is complete. -/
def done (s : State) : State := { s with phase := .idle }

/-- `halt()` (spec/60_exceptions.md R301): the fault state of BRK and of an illegal opcode. There is no other trap entry
(R308), and no return from it but reset (R309). -/
def halt (s : State) : State := { s with isRunning := false, phase := .idle }

/-- `emit(event)` (spec/00_scope.md R9). -/
def emit (e : Event) (s : State) : State := { s with events := e :: s.events }

/-- The illegal-opcode trap (spec/48_misc_halt.md R259): it reports IR and the address it was fetched at, and halts. -/
def trapIllegal (s : State) : State := halt (emit (.illegalOpcode s.ir (s.pc - 1)) s)

/-- The debug-trace event (R257). -/
def traceEvent (s : State) : Event := .trace s.a s.x s.y s.p s.ir s.sp s.pc s.instructionCount

/-! ## The cycle scheduler (spec/40_core_cycle.md R100 to R104) -/

/-- FetchStep (R102): the first call of every instruction. -/
def fetchStep (s : State) : State :=
  { takePcByte s with
    ir := pcByte s
    instructionCount := (s.instructionCount + 1) % 2 ^ s.cfg.icountWidth
    foundAddress := false
    aaa := opcodeAaa (pcByte s)
    bbb := opcodeBbb (pcByte s)
    cc := opcodeCc (pcByte s)
    phase := .c1 }

/-- The fixed address of the reset vector's low byte (spec/20_memory.md R53). -/
def vectorLow : Word := 0xFFFC

/-- The fixed address of the reset vector's high byte (R53). -/
def vectorHigh : Word := 0xFFFD

/-- ResetCountdownStep (spec/70_reset_and_hazards.md R331): the vector's bytes are read at countdown values 2 and 1,
each straight into its half of PC. -/
def resetCountdownStep (s : State) : State :=
  let t :=
    if s.resetDelay = 2 then { busRead s vectorLow with pc := setLow s.pc (busAnswer s vectorLow) }
    else if s.resetDelay = 1 then { busRead s vectorHigh with pc := setHigh s.pc (busAnswer s vectorHigh) }
    else s
  { t with resetDelay := s.resetDelay - 1 }

/-- The opcode whose instruction the next call belongs to: between instructions the byte the fetch is about to read,
else the latched IR (R103). -/
def currentOpcode (s : State) : Byte := if s.phase = .idle then pcByte s else s.ir

/-- The instruction the next call belongs to (spec/30_encoding.md R75). -/
def currentInstr (s : State) : Instr := decodeOpcode (currentOpcode s)

/-- Whether both capabilities of the bus have been bound (spec/10_state.md R43). -/
def busBound (s : State) : Bool := s.readBound && s.writeBound

/-- One call of `advance_one_cycle` (R100), over a function that runs one call of an instruction: nothing on a halted
core (spec/60_exceptions.md R302), the countdown while reset_delay is not 0, else a call of the current instruction,
whose first call is the fetch (spec/00_scope.md R18). A step with no bus bound is refused (spec/92_eei_decisions.md
D41). Log entries 1 and 8. -/
def advanceOneCycle (run : Instr → State → Host.Outcome State Fault Refusal) (s : State) :
    Host.Outcome State Fault Refusal :=
  if s.isRunning = false then .next s
  else if busBound s = false then .refused .busUnbound
  else if s.resetDelay ≠ 0 then .next (resetCountdownStep s)
  else run (currentInstr s) s

/-! ## Placing an instruction, for State.withFetchWord -/

/-- Bytes written into the host's memory at consecutive addresses, modulo 65536 (spec/30_encoding.md R71). -/
def placeBytes (m : Memory) (addr : Word) : List Byte → Memory
  | [] => m
  | b :: rest => placeBytes (writeByte m addr.toNat b) (addr + 1) rest

/-- The state in which the next call fetches these bytes at PC: the core runs, its countdown is over, it is between
instructions, a bus is bound, and the host answers from its memory (log entry 11). -/
def placeInstruction (s : State) (bytes : List Byte) : State :=
  { s with
    mem := placeBytes s.mem s.pc bytes
    isRunning := true
    resetDelay := 0
    phase := .idle
    readBound := true
    writeBound := true
    answers := [] }

end Sys2Proof.Machine
end

