-- ==== Sys2Proof/Machine/Operands.lean ====
section
/-! DEFINITION. The addressing_mode_resolver (spec/40_core_cycle.md R106 to R111), the operate and write-back parts
(R113 to R115), and the shapes of the handlers that use them. -/

namespace Sys2Proof.Machine

/-- The part a handler does not have: the malformed addressing/cycle state, which has no step
(spec/93_implementation_defined.md I4). -/
def stuck : Host.Outcome State Fault Refusal := .fault .malformedPhase

/-! ## The resolver -/

/-- The effective address is final: `access_address`, found_address and the Operate phase (R106). -/
def addressReady (ea : Word) (s : State) : State :=
  { s with accessAddress := ea, foundAddress := true, phase := .operate }

/-- The first byte of a 16-bit operand into access_address[7:0], as R109, R110, R206 and R208 read it. -/
def takeLowOperand (s : State) : State :=
  { takePcByte s with accessAddress := setLow s.accessAddress (pcByte s), phase := .c2 }

/-- The zero-page address of the second byte of a (zp,X) pointer: it stays in page 0 (R111). -/
def izxHighAddr (s : State) : Word := zext16 (lowByte s.indirectAddress + 1)

/-- Immediate (R107): no bus access; the operand's address is PC. -/
def resolveImm (s : State) : Option State :=
  match s.phase with
  | .c1 => some { addressReady s.pc s with pc := s.pc + 1 }
  | _ => none

/-- Zero-page (R108). -/
def resolveZp (s : State) : Option State :=
  match s.phase with
  | .c1 => some (addressReady (zext16 (pcByte s)) (takePcByte s))
  | _ => none

/-- Absolute (R109). -/
def resolveAbs (s : State) : Option State :=
  match s.phase with
  | .c1 => some (takeLowOperand s)
  | .c2 => some (addressReady (setHigh s.accessAddress (pcByte s)) (takePcByte s))
  | _ => none

/-- Absolute,Y (R110). -/
def resolveAbsY (s : State) : Option State :=
  match s.phase with
  | .c1 => some (takeLowOperand s)
  | .c2 => some (addressReady (setHigh s.accessAddress (pcByte s) + zext16 s.y) (takePcByte s))
  | _ => none

/-- (Zero-page,X) indexed-indirect (R111). -/
def resolveIzx (s : State) : Option State :=
  match s.phase with
  | .c1 => some { takePcByte s with indirectAddress := zext16 (pcByte s + s.x), phase := .c2 }
  | .c2 =>
    some { busRead s s.indirectAddress with
           accessAddress := setLow s.accessAddress (busAnswer s s.indirectAddress)
           phase := .c3 }
  | .c3 =>
    some (addressReady (setHigh s.accessAddress (busAnswer s (izxHighAddr s))) (busRead s (izxHighAddr s)))
  | _ => none

/-- `Resolve(mode)` (R106): one step of the resolver, or none where the mode has no step for the current phase. -/
def resolve : Mode → State → Option State
  | .imm => resolveImm
  | .zp => resolveZp
  | .abs => resolveAbs
  | .absY => resolveAbsY
  | .izx => resolveIzx

/-- A handler that resolves its operand and then operates (spec/41_accumulator_group.md R140,
spec/47_index_load_store_compare.md R235): the resolver while found_address is false, the operate and write-back parts
once it is true; immediate mode operates in the resolving step (R107). -/
def withOperand (m : Mode) (operate : State → Host.Outcome State Fault Refusal) (s : State) :
    Host.Outcome State Fault Refusal :=
  match s.phase with
  | .idle => .next (fetchStep s)
  | .operate | .writeback1 | .writeback2 => if s.foundAddress then operate s else stuck
  | _ =>
    if s.foundAddress then stuck
    else match resolve m s with
      | none => stuck
      | some t => if m = .imm then operate t else .next t

/-! ## Operate and write-back -/

/-- The operand byte of the operate part: what the host answers at the effective address. -/
def operand (s : State) : Byte := busAnswer s s.accessAddress

/-- The operand is read and latched in compare_operand (R113). -/
def latchOperand (s : State) : State := { busRead s s.accessAddress with compareOperand := operand s }

/-- The Operate part of a read-class instruction (R113): `op` is its computation on the latched operand. -/
def operateRead (op : Byte → State → State) (s : State) : Host.Outcome State Fault Refusal :=
  match s.phase with
  | .operate => .next (done (op (operand s) (latchOperand s)))
  | _ => stuck

/-- The Operate part of a store-class instruction (R114): `reg` is the register it stores. -/
def operateStore (reg : State → Byte) (s : State) : Host.Outcome State Fault Refusal :=
  match s.phase with
  | .operate => .next (done (busWrite s s.accessAddress (reg s)))
  | _ => stuck

/-- The Operate and write-back parts of a read-modify-write instruction (R115): read, compute with the flag update and
no bus access, write. -/
def operateRmw (shift : Byte → Byte → Byte) (flags : Byte → Byte → Byte) (s : State) :
    Host.Outcome State Fault Refusal :=
  match s.phase with
  | .operate => .next (goto .writeback1 (latchOperand s))
  | .writeback1 =>
    .next (goto .writeback2
      { s with compareOperand := shift s.compareOperand s.p, p := flags s.compareOperand s.p })
  | .writeback2 => .next (done (busWrite s s.accessAddress s.compareOperand))
  | _ => stuck

/-- A read-class instruction. -/
def readInstr (m : Mode) (op : Byte → State → State) (s : State) : Host.Outcome State Fault Refusal :=
  withOperand m (operateRead op) s

/-- A store-class instruction. -/
def storeInstr (m : Mode) (reg : State → Byte) (s : State) : Host.Outcome State Fault Refusal :=
  withOperand m (operateStore reg) s

/-- A read-modify-write instruction. -/
def rmwInstr (m : Mode) (shift : Byte → Byte → Byte) (flags : Byte → Byte → Byte) (s : State) :
    Host.Outcome State Fault Refusal :=
  withOperand m (operateRmw shift flags) s

/-- An instruction of one execute call (2 calls in all): `f` is what that call does before it completes. -/
def oneCallInstr (f : State → State) (s : State) : Host.Outcome State Fault Refusal :=
  match s.phase with
  | .idle => .next (fetchStep s)
  | .c1 => .next (done (f s))
  | _ => stuck

/-- An instruction whose one execute call halts. -/
def haltingInstr (trap : State → State) (s : State) : Host.Outcome State Fault Refusal :=
  match s.phase with
  | .idle => .next (fetchStep s)
  | .c1 => .next (trap s)
  | _ => stuck

/-! ## The effective address in one formula (spec/30_encoding.md R72), for the claim that the resolver computes it -/

/-- The address of the operand of an instruction whose operand bytes start at PC, when the host answers from its
memory (R72). -/
def effectiveAddress (m : Mode) (s : State) : Word :=
  let byteAt (addr : Word) : Byte := readByte s.mem addr.toNat
  match m with
  | .imm => s.pc
  | .zp => mkWord 0 (byteAt s.pc)
  | .abs => mkWord (byteAt (s.pc + 1)) (byteAt s.pc)
  | .absY => mkWord (byteAt (s.pc + 1)) (byteAt s.pc) + zext16 s.y
  | .izx =>
    let pointer : Byte := byteAt s.pc + s.x
    mkWord (byteAt (zext16 (pointer + 1))) (byteAt (zext16 pointer))

end Sys2Proof.Machine
end

