-- ==== Sys2Proof/Machine/Accumulator.lean ====
section
/-! DEFINITION. The accumulator group (spec/41_accumulator_group.md R140 to R151). -/

namespace Sys2Proof.Machine

/-- A result into A with set_NZ. -/
def loadA (v : Byte) (s : State) : State := { s with a := v, p := setNZ v s.p }

/-- ORA (R141). -/
def execOra (m : Mode) (s : State) : Host.Outcome State Fault Refusal :=
  readInstr m (fun v t => loadA (t.a ||| v) t) s

/-- AND (R142). -/
def execAnd (m : Mode) (s : State) : Host.Outcome State Fault Refusal :=
  readInstr m (fun v t => loadA (t.a &&& v) t) s

/-- EOR (R143). -/
def execEor (m : Mode) (s : State) : Host.Outcome State Fault Refusal :=
  readInstr m (fun v t => loadA (t.a ^^^ v) t) s

/-- ADC (R144, spec/40_core_cycle.md R122): binary whatever DEC holds (R151). -/
def execAdc (m : Mode) (s : State) : Host.Outcome State Fault Refusal :=
  readInstr m (fun v t => { t with a := add8 t.a v t.p, p := add8Flags t.a v t.p }) s

/-- STA (R145). -/
def execSta (m : Mode) (s : State) : Host.Outcome State Fault Refusal :=
  storeInstr m (fun t => t.a) s

/-- LDA (R146). -/
def execLda (m : Mode) (s : State) : Host.Outcome State Fault Refusal :=
  readInstr m (fun v t => loadA v t) s

/-- CMP (R147): A is not changed. -/
def execCmp (m : Mode) (s : State) : Host.Outcome State Fault Refusal :=
  readInstr m (fun v t => { t with p := compareFlags t.a v t.p }) s

/-- SBC (R148, spec/40_core_cycle.md R123). -/
def execSbc (m : Mode) (s : State) : Host.Outcome State Fault Refusal :=
  readInstr m (fun v t => { t with a := sub8 t.a v t.p, p := sub8Flags t.a v t.p }) s

/-- 0x89, the STA immediate slot (R149): the operand byte is skipped and not read. -/
def execNopStaImm (s : State) : Host.Outcome State Fault Refusal :=
  oneCallInstr (fun t => { t with accessAddress := t.pc, pc := t.pc + 1, foundAddress := true }) s

/-- UnmodelledModeStep (R150) under UNMODELLED_MODE_POLICY: nothing and done, the illegal-opcode trap, or no
progress. -/
def unmodelledStep (s : State) : Host.Outcome State Fault Refusal :=
  match s.phase with
  | .idle => .next (fetchStep s)
  | .c1 =>
    match s.cfg.unmodelled with
    | .nop1 => .next (done s)
    | .halt => .next (trapIllegal s)
    | .hang => .next s
  | _ => stuck

/-- An ORA opcode of an unmodelled mode (R150). -/
def execUnmodelledOra (_slot : BitVec 3) (s : State) : Host.Outcome State Fault Refusal := unmodelledStep s

/-- An AND opcode of an unmodelled mode (R150). -/
def execUnmodelledAnd (_slot : BitVec 3) (s : State) : Host.Outcome State Fault Refusal := unmodelledStep s

/-- An EOR opcode of an unmodelled mode (R150). -/
def execUnmodelledEor (_slot : BitVec 3) (s : State) : Host.Outcome State Fault Refusal := unmodelledStep s

/-- An ADC opcode of an unmodelled mode (R150). -/
def execUnmodelledAdc (_slot : BitVec 3) (s : State) : Host.Outcome State Fault Refusal := unmodelledStep s

/-- A STA opcode of an unmodelled mode (R150). -/
def execUnmodelledSta (_slot : BitVec 3) (s : State) : Host.Outcome State Fault Refusal := unmodelledStep s

/-- An LDA opcode of an unmodelled mode (R150). -/
def execUnmodelledLda (_slot : BitVec 3) (s : State) : Host.Outcome State Fault Refusal := unmodelledStep s

/-- A CMP opcode of an unmodelled mode (R150). -/
def execUnmodelledCmp (_slot : BitVec 3) (s : State) : Host.Outcome State Fault Refusal := unmodelledStep s

/-- An SBC opcode of an unmodelled mode (R150). -/
def execUnmodelledSbc (_slot : BitVec 3) (s : State) : Host.Outcome State Fault Refusal := unmodelledStep s

end Sys2Proof.Machine
end

