-- ==== Sys2Proof/Machine/Branch.lean ====
section
/-! DEFINITION. The branch engine (spec/43_branch.md R180 to R189). -/

namespace Sys2Proof.Machine

/-- The true target of a branch: old_pc plus the sign-extended offset, modulo 65536 (R181). -/
def branchTarget (oldPc : Word) (offset : Byte) : Word := oldPc + sext16 offset

/-- The PC of a taken branch before the page fix-up: the low byte of the sum under the old high byte (R181). -/
def branchLowSum (oldPc : Word) (offset : Byte) : Word := mkWord (highByte oldPc) (lowByte oldPc + offset)

/-- Whether a taken branch crosses a page: the target's page against old_pc's (R181,
spec/90_conflicts.md C3). -/
def branchCrosses (oldPc : Word) (offset : Byte) : Bool := highByte (branchTarget oldPc offset) != highByte oldPc

/-- FetchOffset (R181, cycle 1): the offset and the base of the displacement. -/
def fetchOffset (s : State) : State := { takePcByte s with offset := pcByte s, oldPc := s.pc + 1 }

/-- The branch schedule (R181): the condition is decided in the FetchOffset step. -/
def branchStep (taken : State → Bool) (s : State) : Host.Outcome State Fault Refusal :=
  match s.phase with
  | .idle => .next (fetchStep s)
  | .c1 => .next (if taken s then goto .c2 (fetchOffset s) else done (fetchOffset s))
  | .c2 =>
    let t := { s with pc := branchLowSum s.oldPc s.offset }
    .next (if branchCrosses s.oldPc s.offset then goto .c3 t else done t)
  | .c3 => .next (done { s with pc := branchTarget s.oldPc s.offset })
  | _ => stuck

/-- BPL (R182). -/
def execBpl (s : State) : Host.Outcome State Fault Refusal := branchStep (fun t => !getFlag .neg t.p) s

/-- BMI (R183). -/
def execBmi (s : State) : Host.Outcome State Fault Refusal := branchStep (fun t => getFlag .neg t.p) s

/-- BVC (R184). -/
def execBvc (s : State) : Host.Outcome State Fault Refusal := branchStep (fun t => !getFlag .ovr t.p) s

/-- BVS (R185). -/
def execBvs (s : State) : Host.Outcome State Fault Refusal := branchStep (fun t => getFlag .ovr t.p) s

/-- BCC (R186). -/
def execBcc (s : State) : Host.Outcome State Fault Refusal := branchStep (fun t => !getFlag .car t.p) s

/-- BCS (R187). -/
def execBcs (s : State) : Host.Outcome State Fault Refusal := branchStep (fun t => getFlag .car t.p) s

/-- BNE (R188). -/
def execBne (s : State) : Host.Outcome State Fault Refusal := branchStep (fun t => !getFlag .zer t.p) s

/-- BEQ (R189). -/
def execBeq (s : State) : Host.Outcome State Fault Refusal := branchStep (fun t => getFlag .zer t.p) s

end Sys2Proof.Machine
end

