-- ==== Sys2Proof/Machine/FlagOps.lean ====
section
/-! DEFINITION. Flag set/clear (spec/44_flag_set_clear.md R190 to R197). -/

namespace Sys2Proof.Machine

/-- One bit of P written (R190). -/
def writeFlag (f : Flag) (v : Bool) (s : State) : State := { s with p := setFlag f v s.p }

/-- CLC (R191). -/
def execClc (s : State) : Host.Outcome State Fault Refusal := oneCallInstr (writeFlag .car false) s

/-- SEC (R192). -/
def execSec (s : State) : Host.Outcome State Fault Refusal := oneCallInstr (writeFlag .car true) s

/-- CLI (R193). -/
def execCli (s : State) : Host.Outcome State Fault Refusal := oneCallInstr (writeFlag .ire false) s

/-- SEI (R194). -/
def execSei (s : State) : Host.Outcome State Fault Refusal := oneCallInstr (writeFlag .ire true) s

/-- CLV (R195): 0xB8 clears OVR. -/
def execClv (s : State) : Host.Outcome State Fault Refusal := oneCallInstr (writeFlag .ovr false) s

/-- CLD (R196). -/
def execCld (s : State) : Host.Outcome State Fault Refusal := oneCallInstr (writeFlag .dec false) s

/-- SED (R197). -/
def execSed (s : State) : Host.Outcome State Fault Refusal := oneCallInstr (writeFlag .dec true) s

end Sys2Proof.Machine
end

