-- ==== Sys2Proof/Machine/Transfer.lean ====
section
/-! DEFINITION. Register transfers, increments and decrements (spec/46_transfer_incdec.md R220 to R230). -/

namespace Sys2Proof.Machine

/-- A result into X with set_NZ (R220). -/
def loadX (v : Byte) (s : State) : State := { s with x := v, p := setNZ v s.p }

/-- A result into Y with set_NZ (R220). -/
def loadY (v : Byte) (s : State) : State := { s with y := v, p := setNZ v s.p }

/-- TAX (R221). -/
def execTax (s : State) : Host.Outcome State Fault Refusal := oneCallInstr (fun t => loadX t.a t) s

/-- TXA (R222). -/
def execTxa (s : State) : Host.Outcome State Fault Refusal := oneCallInstr (fun t => loadA t.x t) s

/-- TAY (R223). -/
def execTay (s : State) : Host.Outcome State Fault Refusal := oneCallInstr (fun t => loadY t.a t) s

/-- TYA (R224). -/
def execTya (s : State) : Host.Outcome State Fault Refusal := oneCallInstr (fun t => loadA t.y t) s

/-- INX (R225). -/
def execInx (s : State) : Host.Outcome State Fault Refusal := oneCallInstr (fun t => loadX (t.x + 1) t) s

/-- INY (R226). -/
def execIny (s : State) : Host.Outcome State Fault Refusal := oneCallInstr (fun t => loadY (t.y + 1) t) s

/-- DEX (R227). -/
def execDex (s : State) : Host.Outcome State Fault Refusal := oneCallInstr (fun t => loadX (t.x - 1) t) s

/-- DEY (R228). -/
def execDey (s : State) : Host.Outcome State Fault Refusal := oneCallInstr (fun t => loadY (t.y - 1) t) s

/-- INC A (R229). -/
def execIncA (s : State) : Host.Outcome State Fault Refusal := oneCallInstr (fun t => loadA (t.a + 1) t) s

/-- DEC A (R230). -/
def execDecA (s : State) : Host.Outcome State Fault Refusal := oneCallInstr (fun t => loadA (t.a - 1) t) s

end Sys2Proof.Machine
end

