-- ==== Sys2Proof/Machine/Index.lean ====
section
/-! DEFINITION. Index-register load, store and compare, and BIT (spec/47_index_load_store_compare.md R235 to R243). -/

namespace Sys2Proof.Machine

/-- LDX (R236). -/
def execLdx (m : Mode) (s : State) : Host.Outcome State Fault Refusal := readInstr m (fun v t => loadX v t) s

/-- LDY (R237). -/
def execLdy (m : Mode) (s : State) : Host.Outcome State Fault Refusal := readInstr m (fun v t => loadY v t) s

/-- STX (R238). -/
def execStx (m : Mode) (s : State) : Host.Outcome State Fault Refusal := storeInstr m (fun t => t.x) s

/-- STY (R239). -/
def execSty (m : Mode) (s : State) : Host.Outcome State Fault Refusal := storeInstr m (fun t => t.y) s

/-- CPX (R240). -/
def execCpx (m : Mode) (s : State) : Host.Outcome State Fault Refusal :=
  readInstr m (fun v t => { t with p := compareFlags t.x v t.p }) s

/-- CPY (R241). -/
def execCpy (m : Mode) (s : State) : Host.Outcome State Fault Refusal :=
  readInstr m (fun v t => { t with p := compareFlags t.y v t.p }) s

/-- BIT (R242). -/
def execBit (m : Mode) (s : State) : Host.Outcome State Fault Refusal :=
  readInstr m (fun v t => { t with p := bitTestFlags t.a v t.p }) s

end Sys2Proof.Machine
end

