-- ==== Sys2Proof/Machine/Misc.lean ====
section
/-! DEFINITION. NOP, the debug trace, BRK and the illegal-opcode trap (spec/48_misc_halt.md R255 to R259). -/

namespace Sys2Proof.Machine

/-- NOP (R255). -/
def execNop (s : State) : Host.Outcome State Fault Refusal := oneCallInstr (fun t => t) s

/-- DBG (R257): it emits the trace event and does nothing else. -/
def execDbg (s : State) : Host.Outcome State Fault Refusal := oneCallInstr (fun t => emit (traceEvent t) t) s

/-- BRK (R258): it halts, with no event, no push and no vector. -/
def execBrk (s : State) : Host.Outcome State Fault Refusal := haltingInstr halt s

/-- ILLEGAL (R259): the illegal-opcode trap, which reports IR. -/
def execIllegal (_opcode : Byte) (s : State) : Host.Outcome State Fault Refusal := haltingInstr trapIllegal s

end Sys2Proof.Machine
end

