-- ==== Sys2Proof/Machine/Shift.lean ====
section
/-! DEFINITION. The shift/rotate group (spec/42_shift_group.md R170 to R174). -/

namespace Sys2Proof.Machine

/-- ASL A (R171, R173). -/
def execAslA (s : State) : Host.Outcome State Fault Refusal :=
  oneCallInstr (fun t => { t with a := asl8 t.a, p := asl8Flags t.a t.p }) s

/-- ASL on memory (R172, R173). -/
def execAsl (m : Mode) (s : State) : Host.Outcome State Fault Refusal :=
  rmwInstr m (fun v _ => asl8 v) asl8Flags s

/-- ROL A (R171, R174). -/
def execRolA (s : State) : Host.Outcome State Fault Refusal :=
  oneCallInstr (fun t => { t with a := rol8 t.a t.p, p := rol8Flags t.a t.p }) s

/-- ROL on memory (R172, R174). -/
def execRol (m : Mode) (s : State) : Host.Outcome State Fault Refusal :=
  rmwInstr m rol8 rol8Flags s

/-- An ASL opcode of an unmodelled mode (R170, spec/41_accumulator_group.md R150). -/
def execUnmodelledAsl (_slot : BitVec 3) (s : State) : Host.Outcome State Fault Refusal := unmodelledStep s

/-- A ROL opcode of an unmodelled mode (R170, R150). -/
def execUnmodelledRol (_slot : BitVec 3) (s : State) : Host.Outcome State Fault Refusal := unmodelledStep s

end Sys2Proof.Machine
end

