-- ==== Sys2Proof/Machine/Stack.lean ====
section
/-! DEFINITION. The stack and subroutine engine (spec/45_stack_subroutine_jump.md R200 to R210). -/

namespace Sys2Proof.Machine

/-- PHP (R201): BRK is set in the pushed byte only. -/
def execPhp (s : State) : Host.Outcome State Fault Refusal := oneCallInstr (fun t => push t (phpByte t.p)) s

/-- PLP (R202). -/
def execPlp (s : State) : Host.Outcome State Fault Refusal :=
  oneCallInstr (fun t => { pulled t with p := plpFlags t.cfg.plpIgn (pullByte t) }) s

/-- PHA (R203). -/
def execPha (s : State) : Host.Outcome State Fault Refusal := oneCallInstr (fun t => push t t.a) s

/-- PLA (R204). -/
def execPla (s : State) : Host.Outcome State Fault Refusal :=
  oneCallInstr (fun t => loadA (pullByte t) (pulled t)) s

/-- The second byte of a 16-bit operand into access_address[15:8] (R206, R208). -/
def takeHighOperand (s : State) : State :=
  { takePcByte s with accessAddress := setHigh s.accessAddress (pcByte s) }

/-- JSR (R206): the return address minus one is pushed high byte first (R205). -/
def execJsr (s : State) : Host.Outcome State Fault Refusal :=
  match s.phase with
  | .idle => .next (fetchStep s)
  | .c1 => .next (takeLowOperand s)
  | .c2 => .next (goto .c3 (takeHighOperand s))
  | .c3 => .next (goto .c4 { push s (highByte (s.pc - 1)) with oldPc := s.pc - 1 })
  | .c4 => .next (done { push s (lowByte s.oldPc) with pc := s.accessAddress })
  | _ => stuck

/-- RTS (R207): one dummy read at PC, then the saved address is pulled low byte first. -/
def execRts (s : State) : Host.Outcome State Fault Refusal :=
  match s.phase with
  | .idle => .next (fetchStep s)
  | .c1 => .next (goto .c2 (busRead s s.pc))
  | .c2 => .next (goto .c3 { pulled s with accessAddress := setLow s.accessAddress (pullByte s) })
  | .c3 =>
    .next (done { pulled s with
      accessAddress := setHigh s.accessAddress (pullByte s)
      pc := setHigh s.accessAddress (pullByte s) + 1 })
  | _ => stuck

/-- JMP absolute (R208). PC is loaded with the target, not advanced, in the second operand's call. -/
def execJmpAbs (s : State) : Host.Outcome State Fault Refusal :=
  match s.phase with
  | .idle => .next (fetchStep s)
  | .c1 => .next (takeLowOperand s)
  | .c2 =>
    .next (done { takeHighOperand s with pc := setHigh s.accessAddress (pcByte s) })
  | _ => stuck

/-- JMP indirect, 65C02 form (R209): a fix-up call with no bus access, and the target's high byte from pointer + 1
modulo 65536. -/
def execJmpInd (s : State) : Host.Outcome State Fault Refusal :=
  match s.phase with
  | .idle => .next (fetchStep s)
  | .c1 => .next (goto .c2 { takePcByte s with indirectAddress := setLow s.indirectAddress (pcByte s) })
  | .c2 => .next (goto .c3 { takePcByte s with indirectAddress := setHigh s.indirectAddress (pcByte s) })
  | .c3 => .next (goto .c4 s)
  | .c4 =>
    .next (goto .c5 { busRead s s.indirectAddress with
      accessAddress := setLow s.accessAddress (busAnswer s s.indirectAddress) })
  | .c5 =>
    let target := setHigh s.accessAddress (busAnswer s (s.indirectAddress + 1))
    .next (done { busRead s (s.indirectAddress + 1) with accessAddress := target, pc := target })
  | _ => stuck

end Sys2Proof.Machine
end

