-- ==== Sys2Proof/Machine/Dispatch.lean ====
section
/-! DEFINITION. The execution_unit_dispatcher (spec/40_core_cycle.md R103): one call of an instruction, by constructor. -/

namespace Sys2Proof.Machine

/-- One call of instruction `i`: its fetch call when the scheduler is idle, else its handler's part for the current
`cycle` (spec/00_scope.md R18, spec/40_core_cycle.md R103). Log entry 1. -/
def exec (i : Instr) (s : State) : Host.Outcome State Fault Refusal :=
  match i with
  | .ora m => Sys2Proof.Machine.execOra m s
  | .and m => Sys2Proof.Machine.execAnd m s
  | .eor m => Sys2Proof.Machine.execEor m s
  | .adc m => Sys2Proof.Machine.execAdc m s
  | .sta m => Sys2Proof.Machine.execSta m s
  | .lda m => Sys2Proof.Machine.execLda m s
  | .cmp m => Sys2Proof.Machine.execCmp m s
  | .sbc m => Sys2Proof.Machine.execSbc m s
  | .nopStaImm => Sys2Proof.Machine.execNopStaImm s
  | .unmodelledOra slot => Sys2Proof.Machine.execUnmodelledOra slot s
  | .unmodelledAnd slot => Sys2Proof.Machine.execUnmodelledAnd slot s
  | .unmodelledEor slot => Sys2Proof.Machine.execUnmodelledEor slot s
  | .unmodelledAdc slot => Sys2Proof.Machine.execUnmodelledAdc slot s
  | .unmodelledSta slot => Sys2Proof.Machine.execUnmodelledSta slot s
  | .unmodelledLda slot => Sys2Proof.Machine.execUnmodelledLda slot s
  | .unmodelledCmp slot => Sys2Proof.Machine.execUnmodelledCmp slot s
  | .unmodelledSbc slot => Sys2Proof.Machine.execUnmodelledSbc slot s
  | .unmodelledAsl slot => Sys2Proof.Machine.execUnmodelledAsl slot s
  | .unmodelledRol slot => Sys2Proof.Machine.execUnmodelledRol slot s
  | .aslA => Sys2Proof.Machine.execAslA s
  | .asl m => Sys2Proof.Machine.execAsl m s
  | .rolA => Sys2Proof.Machine.execRolA s
  | .rol m => Sys2Proof.Machine.execRol m s
  | .bpl => Sys2Proof.Machine.execBpl s
  | .bmi => Sys2Proof.Machine.execBmi s
  | .bvc => Sys2Proof.Machine.execBvc s
  | .bvs => Sys2Proof.Machine.execBvs s
  | .bcc => Sys2Proof.Machine.execBcc s
  | .bcs => Sys2Proof.Machine.execBcs s
  | .bne => Sys2Proof.Machine.execBne s
  | .beq => Sys2Proof.Machine.execBeq s
  | .clc => Sys2Proof.Machine.execClc s
  | .sec => Sys2Proof.Machine.execSec s
  | .cli => Sys2Proof.Machine.execCli s
  | .sei => Sys2Proof.Machine.execSei s
  | .clv => Sys2Proof.Machine.execClv s
  | .cld => Sys2Proof.Machine.execCld s
  | .sed => Sys2Proof.Machine.execSed s
  | .php => Sys2Proof.Machine.execPhp s
  | .plp => Sys2Proof.Machine.execPlp s
  | .pha => Sys2Proof.Machine.execPha s
  | .pla => Sys2Proof.Machine.execPla s
  | .jsr => Sys2Proof.Machine.execJsr s
  | .rts => Sys2Proof.Machine.execRts s
  | .jmpAbs => Sys2Proof.Machine.execJmpAbs s
  | .jmpInd => Sys2Proof.Machine.execJmpInd s
  | .tax => Sys2Proof.Machine.execTax s
  | .txa => Sys2Proof.Machine.execTxa s
  | .tay => Sys2Proof.Machine.execTay s
  | .tya => Sys2Proof.Machine.execTya s
  | .inx => Sys2Proof.Machine.execInx s
  | .iny => Sys2Proof.Machine.execIny s
  | .dex => Sys2Proof.Machine.execDex s
  | .dey => Sys2Proof.Machine.execDey s
  | .incA => Sys2Proof.Machine.execIncA s
  | .decA => Sys2Proof.Machine.execDecA s
  | .ldx m => Sys2Proof.Machine.execLdx m s
  | .ldy m => Sys2Proof.Machine.execLdy m s
  | .stx m => Sys2Proof.Machine.execStx m s
  | .sty m => Sys2Proof.Machine.execSty m s
  | .cpx m => Sys2Proof.Machine.execCpx m s
  | .cpy m => Sys2Proof.Machine.execCpy m s
  | .bit m => Sys2Proof.Machine.execBit m s
  | .nop => Sys2Proof.Machine.execNop s
  | .dbg => Sys2Proof.Machine.execDbg s
  | .brk => Sys2Proof.Machine.execBrk s
  | .illegal opcode => Sys2Proof.Machine.execIllegal opcode s

end Sys2Proof.Machine
end

