-- ==== Sys2Proof/Machine/Step.lean ====
section
/-! DEFINITION. One step of the machine, which is one call of `advance_one_cycle` (spec/40_core_cycle.md R100), and the
placing of an instruction where the next step fetches. -/

namespace Sys2Proof.Machine

/-- One call of `advance_one_cycle` (R100), over the dispatcher. -/
def step (s : State) : Host.Outcome State Fault Refusal := advanceOneCycle exec s

/-- `s` with the instruction whose table bits are `w` at PC, and everything set that the next step needs to fetch it
(log entry 11). -/
def State.withFetchWord (s : State) (nbits w : Nat) : State := placeInstruction s (tableWordBytes nbits w)

end Sys2Proof.Machine
end

