-- ==== Sys2Proof/Machine/HostPort.lean ====
section
/-! DEFINITION. What the host does between two steps (spec/60_exceptions.md R318). -/

namespace Sys2Proof.Machine

/-- `reset(read?, write?)` (spec/70_reset_and_hazards.md R330): `giveRead` and `giveWrite` say which capabilities the host
hands over; a capability that is not given is the one bound before. It is refused when none was ever bound
(spec/92_eei_decisions.md D41). It makes no bus access, and leaves the host's memory as it is (R333). -/
def hostReset (giveRead giveWrite : Bool) (s : State) : Host.Outcome State Fault Refusal :=
  let readBound := giveRead || s.readBound
  let writeBound := giveWrite || s.writeBound
  if readBound && writeBound then
    .next
      { State.constructed s.cfg with
        pc := vectorLow
        sp := s.cfg.spReset
        p := flagMask .ign
        resetDelay := s.cfg.resetDelay
        isRunning := true
        readBound := readBound
        writeBound := writeBound
        mem := s.mem
        answers := s.answers
        busLog := s.busLog
        events := s.events }
  else .refused .busUnbound

/-- The host changes one byte of its memory between two steps (spec/20_memory.md R68). -/
def hostPoke (addr : Word) (v : Byte) (s : State) : State := { s with mem := writeByte s.mem addr.toNat v }

/-- The host settles what it will answer to the reads to come (spec/20_memory.md R52). -/
def hostAnswer (answers : List (Option Byte)) (s : State) : State := { s with answers := answers }

end Sys2Proof.Machine
end

