-- ==== Sys2Proof/Safety.lean ====
section
/-! DEFINITION. Runs of several calls, the phases each instruction goes through, and the invariant of the machine
(spec/10_state.md R33, R44). -/

namespace Sys2Proof.Machine

/-- `n` calls of `advance_one_cycle`, stopping at the first fault or refusal. -/
def run : Nat → State → Host.Outcome State Fault Refusal
  | 0, s => .next s
  | n + 1, s =>
    match step s with
    | .next t => run n t
    | .fault r => .fault r
    | .refused r => .refused r

/-- The phases of the resolver in a mode: one for each operand or pointer byte it reads (spec/40_core_cycle.md R107 to
R111). Immediate mode operates in its one resolving step. -/
def resolvePhases : Mode → List Phase
  | .imm | .zp => [.c1]
  | .abs | .absY => [.c1, .c2]
  | .izx => [.c1, .c2, .c3]

/-- The phases of a read-class or store-class handler after the fetch (R116, spec/41_accumulator_group.md R140). In
immediate mode the Operate part runs within the resolving step, so no run stops at that phase. -/
def accessPhases (m : Mode) : List Phase := resolvePhases m ++ [.operate]

/-- The phases of a read-modify-write instruction after its fetch (R115, R116). -/
def rmwPhases (m : Mode) : List Phase := resolvePhases m ++ [.operate, .writeback1, .writeback2]

/-- The phases after the fetch call that an instruction's rule has a part for. -/
def busyPhases : Instr → List Phase
  | .ora m | .and m | .eor m | .adc m | .sta m | .lda m | .cmp m | .sbc m => accessPhases m
  | .ldx m | .ldy m | .stx m | .sty m | .cpx m | .cpy m | .bit m => accessPhases m
  | .asl m | .rol m => rmwPhases m
  | .bpl | .bmi | .bvc | .bvs | .bcc | .bcs | .bne | .beq => [.c1, .c2, .c3]
  | .jsr => [.c1, .c2, .c3, .c4]
  | .rts => [.c1, .c2, .c3]
  | .jmpAbs => [.c1, .c2]
  | .jmpInd => [.c1, .c2, .c3, .c4, .c5]
  | .nopStaImm | .aslA | .rolA => [.c1]
  | .unmodelledOra _ | .unmodelledAnd _ | .unmodelledEor _ | .unmodelledAdc _ => [.c1]
  | .unmodelledSta _ | .unmodelledLda _ | .unmodelledCmp _ | .unmodelledSbc _ => [.c1]
  | .unmodelledAsl _ | .unmodelledRol _ => [.c1]
  | .clc | .sec | .cli | .sei | .clv | .cld | .sed => [.c1]
  | .php | .plp | .pha | .pla => [.c1]
  | .tax | .txa | .tay | .tya | .inx | .iny | .dex | .dey | .incA | .decA => [.c1]
  | .nop | .dbg | .brk | .illegal _ => [.c1]

/-- The mode of an instruction that uses the resolver. -/
def operandMode : Instr → Option Mode
  | .ora m | .and m | .eor m | .adc m | .sta m | .lda m | .cmp m | .sbc m => some m
  | .ldx m | .ldy m | .stx m | .sty m | .cpx m | .cpy m | .bit m => some m
  | .asl m | .rol m => some m
  | _ => none

/-- The branches (R79). -/
def isBranch : Instr → Bool
  | .bpl | .bmi | .bvc | .bvs | .bcc | .bcs | .bne | .beq => true
  | _ => false

/-- The unmodelled-mode instructions (R77). -/
def isUnmodelled : Instr → Bool
  | .unmodelledOra _ | .unmodelledAnd _ | .unmodelledEor _ | .unmodelledAdc _ => true
  | .unmodelledSta _ | .unmodelledLda _ | .unmodelledCmp _ | .unmodelledSbc _ => true
  | .unmodelledAsl _ | .unmodelledRol _ => true
  | _ => false

/-- The address-ready range of `cycle`: 0x80 to 0x82 (R105). -/
def isAddressReady : Phase → Bool
  | .operate | .writeback1 | .writeback2 => true
  | _ => false

/-- What holds of the machine after reset and after every call (spec/10_state.md R44, and the limits of the fields). -/
structure Inv (s : State) : Prop where
  /-- The host's memory is in canonical form. -/
  memWf : Memory.wf s.mem = true
  /-- The parameters are within R12's limits. -/
  cfgWf : s.cfg.Wf
  /-- R44 (c): aaa, bbb, cc are the fields of IR. -/
  fields : s.aaa = opcodeAaa s.ir ∧ s.bbb = opcodeBbb s.ir ∧ s.cc = opcodeCc s.ir
  /-- R33: within an instruction, `cycle` is a value the instruction in IR has a part for. -/
  phaseLegal : s.phase = .idle ∨ s.phase ∈ busyPhases (decodeOpcode s.ir)
  /-- R44 (b): found_address is false in the addressing range and true in the address-ready range. -/
  found : s.phase = .idle ∨ s.foundAddress = isAddressReady s.phase
  /-- R44 (e): a halted core has `cycle` = 0. -/
  haltedIdle : s.isRunning = false → s.phase = .idle
  /-- No instruction is under way, and none was fetched, during the reset countdown (R34,
  spec/70_reset_and_hazards.md R331). -/
  countdown : s.resetDelay ≠ 0 → s.phase = .idle ∧ s.instructionCount = 0
  /-- R26: BRK is never set in P. -/
  brkClear : getFlag .brk s.p = false
  /-- R25, R44 (d): IGN is set while the core runs, under the decided PLP policy. -/
  ignSet : s.isRunning = true → s.cfg.plpIgn = .forceOne → getFlag .ign s.p = true
  /-- R42: instruction_count is below 2^ICOUNT_WIDTH. -/
  countBound : s.instructionCount < 2 ^ s.cfg.icountWidth
  /-- R67: a running core has a bus bound. -/
  bound : s.isRunning = true → busBound s = true

end Sys2Proof.Machine
end

