-- ==== Sys2Proof/Certificates/Slice0/Obligations.lean ====
section
/-! DEFINITION. The statements for the provers. The functions of `Sys2Proof.Claims` say, apart from the meanings, which
instructions write what, what they store and which bus accesses they make, as the rules of spec/ list it. -/

namespace Sys2Proof.Claims

open Sys2Proof.Machine

/-! ## When a handler's parts run -/

/-- An execute step can run: the core runs, a bus is bound, and the reset countdown is over (R100). -/
def Executing (s : State) : Prop := s.isRunning = true ∧ busBound s = true ∧ s.resetDelay = 0

/-- A core between two instructions, about to fetch `i`, whose host answers every read from its memory (the RAM host
of R52). -/
def AtInstr (i : Instr) (s : State) : Prop :=
  Executing s ∧ s.phase = .idle ∧ s.answers = [] ∧ readByte s.mem s.pc.toNat = encode i

/-- The Operate part of a resolver instruction is due: in the resolving step itself for immediate mode, at `cycle`
0x80 with the address found for the others (R106, R107, R113). -/
def OperandReady (m : Mode) (s : State) : Prop :=
  (m = .imm ∧ s.phase = .c1 ∧ s.foundAddress = false) ∨
  (m ≠ .imm ∧ s.phase = .operate ∧ s.foundAddress = true)

/-- The address the Operate part reads. -/
def operandAddr (m : Mode) (s : State) : Word := if m = .imm then s.pc else s.accessAddress

/-- The byte the host answers to the Operate part. -/
def operandByte (m : Mode) (s : State) : Byte := busAnswer s (operandAddr m s)

/-- What the Operate part of a read-class instruction does to everything but its own result (R107, R113). -/
def afterOperand (m : Mode) (s : State) : State :=
  { busRead s (operandAddr m s) with
    accessAddress := operandAddr m s
    pc := if m = .imm then s.pc + 1 else s.pc
    foundAddress := true
    compareOperand := operandByte m s
    phase := .idle }

/-- These bytes are the opcodes of an instruction in these modes. -/
abbrev Encodes (i : Mode → Instr) (rows : List (Byte × Mode)) : Prop := ∀ r ∈ rows, decodeOpcode r.1 = i r.2

/-! ## Who writes what (R21 to R23, R29, R31, R37 to R41) -/

/-- The instructions R21 lists as writing A. -/
def writesA : Instr → Bool
  | .lda _ | .pla | .txa | .tya | .ora _ | .and _ | .eor _ | .adc _ | .sbc _ | .incA | .decA | .aslA | .rolA => true
  | _ => false

/-- The instructions R22 lists as writing X. -/
def writesX : Instr → Bool
  | .ldx _ | .tax | .inx | .dex => true
  | _ => false

/-- The instructions R23 lists as writing Y. -/
def writesY : Instr → Bool
  | .ldy _ | .tay | .iny | .dey => true
  | _ => false

/-- The instructions that push or pull (R31). -/
def movesSp : Instr → Bool
  | .php | .plp | .pha | .pla | .jsr | .rts => true
  | _ => false

/-- The instructions whose result sets NEG and ZER: the first five rows of R29's table and BIT. -/
def writesNZ : Instr → Bool
  | .lda _ | .ldx _ | .ldy _ | .tax | .txa | .tay | .tya | .pla | .inx | .iny | .dex | .dey | .incA | .decA => true
  | .ora _ | .and _ | .eor _ | .adc _ | .sbc _ | .cmp _ | .cpx _ | .cpy _ | .aslA | .asl _ | .rolA | .rol _ => true
  | .bit _ => true
  | _ => false

/-- R29's table: whether an instruction writes a flag. PLP writes all of P. -/
def writesFlag (f : Flag) (i : Instr) : Bool :=
  match i with
  | .plp => true
  | .clc | .sec => f == .car
  | .cli | .sei => f == .ire
  | .clv => f == .ovr
  | .cld | .sed => f == .dec
  | .adc _ | .sbc _ => f == .neg || f == .ovr || f == .zer || f == .car
  | .cmp _ | .cpx _ | .cpy _ | .aslA | .asl _ | .rolA | .rol _ => f == .neg || f == .zer || f == .car
  | .bit _ => f == .neg || f == .ovr || f == .zer
  | _ => (f == .neg || f == .zer) && writesNZ i

/-- The instructions that read an operand byte into compare_operand (R113, R115). -/
def latchesOperand : Instr → Bool
  | .sta _ | .stx _ | .sty _ => false
  | i => (operandMode i).isSome

/-- The instructions that write access_address: those of the resolver, 0x89, JSR, RTS and JMP (R37). -/
def writesAccessAddress (i : Instr) : Bool :=
  match i with
  | .nopStaImm | .jsr | .rts | .jmpAbs | .jmpInd => true
  | _ => (operandMode i).isSome

/-- The instructions that write indirect_address: those in (zp,X) mode and JMP indirect (R38). -/
def writesIndirectAddress (i : Instr) : Bool :=
  match i with
  | .jmpInd => true
  | _ => operandMode i == some .izx

/-- The instructions that write old_pc: branches and JSR (R39). -/
def writesOldPc (i : Instr) : Bool :=
  match i with
  | .jsr => true
  | _ => isBranch i

/-- Whether a branch is taken, by the flag its mnemonic names (R182 to R189). -/
def branchTaken : Instr → Byte → Option Bool
  | .bpl, p => some (!getFlag .neg p)
  | .bmi, p => some (getFlag .neg p)
  | .bvc, p => some (!getFlag .ovr p)
  | .bvs, p => some (getFlag .ovr p)
  | .bcc, p => some (!getFlag .car p)
  | .bcs, p => some (getFlag .car p)
  | .bne, p => some (!getFlag .zer p)
  | .beq, p => some (getFlag .zer p)
  | _, _ => none

/-- The 4-entry branch table of R180, indexed by IR[7:6]: NEG, OVR, CAR, ZER. -/
def branchFlag (ir : Byte) : Flag :=
  if ir.extractLsb' 6 2 = 0b00#2 then .neg
  else if ir.extractLsb' 6 2 = 0b01#2 then .ovr
  else if ir.extractLsb' 6 2 = 0b10#2 then .car
  else .zer

/-! ## Stores and bus accesses -/

/-- The register a store-class instruction stores. -/
def storedRegister : Instr → State → Option Byte
  | .sta _, s => some s.a
  | .stx _, s => some s.x
  | .sty _, s => some s.y
  | _, _ => none

/-- The address and the byte one call of an instruction stores, if it stores: a store in its Operate part (R114), a
read-modify-write in Writeback2 (R115), a push at 0x0100 + SP (R17, R201, R203, R206). -/
def stores (i : Instr) (s : State) : Option (Word × Byte) :=
  match i, s.phase with
  | .sta _, .operate => some (s.accessAddress, s.a)
  | .stx _, .operate => some (s.accessAddress, s.x)
  | .sty _, .operate => some (s.accessAddress, s.y)
  | .asl _, .writeback2 => some (s.accessAddress, s.compareOperand)
  | .rol _, .writeback2 => some (s.accessAddress, s.compareOperand)
  | .php, .c1 => some (stackAddr s.sp, phpByte s.p)
  | .pha, .c1 => some (stackAddr s.sp, s.a)
  | .jsr, .c3 => some (stackAddr s.sp, highByte (s.pc - 1))
  | .jsr, .c4 => some (stackAddr s.sp, lowByte s.oldPc)
  | _, _ => none

/-- The address one call of the resolver reads (R107 to R111). -/
def resolverReads (m : Mode) (s : State) : Option Word :=
  match m, s.phase with
  | .imm, .c1 => some s.pc
  | .zp, .c1 => some s.pc
  | .abs, .c1 => some s.pc
  | .abs, .c2 => some s.pc
  | .absY, .c1 => some s.pc
  | .absY, .c2 => some s.pc
  | .izx, .c1 => some s.pc
  | .izx, .c2 => some s.indirectAddress
  | .izx, .c3 => some (zext16 (lowByte s.indirectAddress + 1))
  | _, _ => none

/-- The address one call of an instruction reads, if it reads: the schedules of R102, R116, R149, R181, R202, R204,
R206 to R209. -/
def reads (i : Instr) (s : State) : Option Word :=
  match i, s.phase with
  | _, .idle => some s.pc
  | .plp, .c1 => some (stackAddr (s.sp + 1))
  | .pla, .c1 => some (stackAddr (s.sp + 1))
  | .jsr, .c1 => some s.pc
  | .jsr, .c2 => some s.pc
  | .rts, .c1 => some s.pc
  | .rts, .c2 => some (stackAddr (s.sp + 1))
  | .rts, .c3 => some (stackAddr (s.sp + 1))
  | .jmpAbs, .c1 => some s.pc
  | .jmpAbs, .c2 => some s.pc
  | .jmpInd, .c1 => some s.pc
  | .jmpInd, .c2 => some s.pc
  | .jmpInd, .c4 => some s.indirectAddress
  | .jmpInd, .c5 => some (s.indirectAddress + 1)
  | i, .c1 => if isBranch i then some s.pc else (operandMode i).bind fun m => resolverReads m s
  | i, .operate => if latchesOperand i then some s.accessAddress else none
  | i, _ => (operandMode i).bind fun m => resolverReads m s

/-- The one bus access a call of an instruction makes, if it makes one. -/
def busAccess (i : Instr) (s : State) : Option BusAccess :=
  match stores i s with
  | some (addr, v) => some (.write addr v)
  | none => (reads i s).map fun addr => .read addr (busAnswer s addr)

/-! ## Results of whole instructions -/

/-- What a read-class instruction leaves in A, X, Y and P, given its operand byte (R141 to R148, R236 to R242). -/
def readResult : Instr → Byte → State → Option (Byte × Byte × Byte × Byte)
  | .ora _, v, s => some (s.a ||| v, s.x, s.y, setNZ (s.a ||| v) s.p)
  | .and _, v, s => some (s.a &&& v, s.x, s.y, setNZ (s.a &&& v) s.p)
  | .eor _, v, s => some (s.a ^^^ v, s.x, s.y, setNZ (s.a ^^^ v) s.p)
  | .adc _, v, s => some (add8 s.a v s.p, s.x, s.y, add8Flags s.a v s.p)
  | .sbc _, v, s => some (sub8 s.a v s.p, s.x, s.y, sub8Flags s.a v s.p)
  | .cmp _, v, s => some (s.a, s.x, s.y, compareFlags s.a v s.p)
  | .lda _, v, s => some (v, s.x, s.y, setNZ v s.p)
  | .ldx _, v, s => some (s.a, v, s.y, setNZ v s.p)
  | .ldy _, v, s => some (s.a, s.x, v, setNZ v s.p)
  | .cpx _, v, s => some (s.a, s.x, s.y, compareFlags s.x v s.p)
  | .cpy _, v, s => some (s.a, s.x, s.y, compareFlags s.y v s.p)
  | .bit _, v, s => some (s.a, s.x, s.y, bitTestFlags s.a v s.p)
  | _, _, _ => none

/-- The result byte and the flags of a read-modify-write instruction, given the byte it read (R173, R174). -/
def shiftResult : Instr → Byte → Byte → Option (Byte × Byte)
  | .asl _, v, p => some (asl8 v, asl8Flags v p)
  | .rol _, v, p => some (rol8 v p, rol8Flags v p)
  | _, _, _ => none

/-- Every field the fetch step of `i` and its resolver leave behind, apart from results and the log: what R102 and
R107 to R111 say of a whole resolver instruction run by a RAM host. -/
def afterResolving (i : Instr) (m : Mode) (s : State) : State :=
  { s with
    ir := encode i
    aaa := opcodeAaa (encode i)
    bbb := opcodeBbb (encode i)
    cc := opcodeCc (encode i)
    instructionCount := (s.instructionCount + 1) % 2 ^ s.cfg.icountWidth
    pc := s.pc + BitVec.ofNat 16 i.length
    foundAddress := true
    accessAddress := effectiveAddress m { s with pc := s.pc + 1 }
    indirectAddress :=
      if m = .izx then zext16 (readByte s.mem (s.pc + 1).toNat + s.x) else s.indirectAddress }

end Sys2Proof.Claims

open Sys2Proof Sys2Proof.Machine Sys2Proof.Claims

/-! ## Reset and the scheduler -/

/-- R330: what `reset` leaves in every field, with whichever capabilities it is handed, and its refusal when one was
never bound (D41). SP and reset_delay are the implementation's parameters. -/
def Obligations.ResetWritesEveryField : Prop :=
  ∀ (giveRead giveWrite : Bool) (s : State),
    ((giveRead || s.readBound) = true ∧ (giveWrite || s.writeBound) = true →
      hostReset giveRead giveWrite s = .next
        { a := 0, x := 0, y := 0, p := 0x20, pc := 0xFFFC, sp := s.cfg.spReset, ir := 0, phase := .idle,
          resetDelay := s.cfg.resetDelay, aaa := 0, bbb := 0, cc := 0, foundAddress := false, accessAddress := 0,
          indirectAddress := 0, oldPc := 0, offset := 0, compareOperand := 0, instructionCount := 0, isRunning := true,
          cfg := s.cfg, readBound := giveRead || s.readBound, writeBound := giveWrite || s.writeBound, mem := s.mem,
          answers := s.answers, busLog := s.busLog, events := s.events }) ∧
    ((giveRead || s.readBound) = false ∨ (giveWrite || s.writeBound) = false →
      hostReset giveRead giveWrite s = .refused .busUnbound)

/-- The model's own choice (log entry 3): State.reset is what the first reset of a constructed core leaves, with the
sample parameters. -/
def Obligations.StateResetIsFirstReset : Prop :=
  hostReset true true (State.constructed Config.sample) = .next State.reset

/-- R331, R332: the countdown call by call. After k calls the countdown has gone down by k and nothing else has
changed but, in the last two calls, the two halves of PC, which take the host's answers at 0xFFFC and 0xFFFD. -/
def Obligations.ResetCountdownLoadsVector : Prop :=
  ∀ (s : State) (k : Nat), s.isRunning = true → busBound s = true → 2 ≤ s.resetDelay.toNat →
    let low := busAnswer s 0xFFFC
    let high := busAnswer (busRead s 0xFFFC) 0xFFFD
    (k + 2 ≤ s.resetDelay.toNat → run k s = .next { s with resetDelay := s.resetDelay - BitVec.ofNat 8 k }) ∧
    (k + 1 = s.resetDelay.toNat →
      run k s = .next { busRead s 0xFFFC with pc := mkWord (highByte s.pc) low, resetDelay := 1 }) ∧
    (k = s.resetDelay.toNat →
      run k s = .next { busRead (busRead s 0xFFFC) 0xFFFD with pc := mkWord high low, resetDelay := 0 })

/-- R302: a halted core is absorbing, a constructed core is halted, and only `reset` makes a core run. -/
def Obligations.HaltedCoreIsAbsorbing : Prop :=
  (∀ s : State, s.isRunning = false → step s = .next s) ∧
  (∀ cfg : Config, (State.constructed cfg).isRunning = false) ∧
  (∀ s t : State, step s = .next t → t.isRunning = true → s.isRunning = true) ∧
  (∀ (giveRead giveWrite : Bool) (s t : State), hostReset giveRead giveWrite s = .next t → t.isRunning = true)

/-- R102: the fetch step, the first call of every instruction. -/
def Obligations.FetchStepEffect : Prop :=
  ∀ s : State, Executing s → s.phase = .idle →
    let opcode := busAnswer s s.pc
    step s = .next
      { busRead s s.pc with
        ir := opcode, pc := s.pc + 1,
        instructionCount := (s.instructionCount + 1) % 2 ^ s.cfg.icountWidth, foundAddress := false,
        aaa := opcode.extractLsb' 5 3, bbb := opcode.extractLsb' 2 3, cc := opcode.extractLsb' 0 2, phase := .c1 }

/-- R100, R103: a step runs one call of the decoded instruction: of the one whose opcode the host answers at PC when
`cycle` is 0 (its fetch call), of the one latched in IR otherwise. The decoded instruction is well formed. -/
def Obligations.StepRunsDecodedInstruction : Prop :=
  ∀ s : State, Executing s →
    (s.phase = .idle → step s = exec (decodeOpcode (busAnswer s s.pc)) s ∧
      (decodeOpcode (busAnswer s s.pc)).wf = true) ∧
    (s.phase ≠ .idle → step s = exec (decodeOpcode s.ir) s ∧ (decodeOpcode s.ir).wf = true)

/-- The model's own hook (log entry 11): an instruction placed by withFetchWord is the one the next step runs, and its
opcode is the one fetched. -/
def Obligations.PlacedInstructionIsRun : Prop :=
  ∀ (s : State) (nbits w : Nat) (i : Instr), Memory.wf s.mem = true → nbits = 8 ∨ nbits = 16 ∨ nbits = 24 →
    decodeTableWord nbits w = some i →
    step (s.withFetchWord nbits w) = exec i (s.withFetchWord nbits w) ∧
    busAnswer (s.withFetchWord nbits w) s.pc = BitVec.ofNat 8 w

/-! ## Flag logic -/

/-- R120: set_NZ. -/
def Obligations.SetNZFlags : Prop :=
  ∀ (r p : Byte) (f : Flag), getFlag f (setNZ r p) =
    match f with
    | .zer => r == 0
    | .neg => r.getLsbD 7
    | _ => getFlag f p

/-- R121: compare. -/
def Obligations.CompareSetsFlags : Prop :=
  ∀ (r m p : Byte) (f : Flag), getFlag f (compareFlags r m p) =
    match f with
    | .zer => r == m
    | .car => decide (m.toNat ≤ r.toNat)
    | .neg => (r - m).getLsbD 7
    | _ => getFlag f p

/-- R122: add8 against exact integers: the sum modulo 256, the carry out of bit 7, and signed overflow, which is also
the rule's sign formula. DEC is not read. -/
def Obligations.Add8IsExactAddition : Prop :=
  ∀ a m p : Byte,
    let c : Nat := if getFlag .car p then 1 else 0
    let r := add8 a m p
    r.toNat = (a.toNat + m.toNat + c) % 256 ∧
    (∀ f : Flag, getFlag f (add8Flags a m p) =
      match f with
      | .car => decide (256 ≤ a.toNat + m.toNat + c)
      | .ovr => ((a ^^^ r) &&& (m ^^^ r)).getLsbD 7
      | .zer => r == 0
      | .neg => r.getLsbD 7
      | _ => getFlag f p) ∧
    (((a ^^^ r) &&& (m ^^^ r)).getLsbD 7 = true ↔ a.toInt + m.toInt + c < -128 ∨ 127 < a.toInt + m.toInt + c)

/-- R123: sub8 against exact integers: a - m - (1 - CAR) modulo 256, CAR iff no borrow, OVR iff the signed result lies
outside -128 to 127. -/
def Obligations.Sub8IsExactSubtraction : Prop :=
  ∀ a m p : Byte,
    let borrow : Int := if getFlag .car p then 0 else 1
    let r := sub8 a m p
    (r.toNat : Int) = ((a.toNat : Int) - m.toNat - borrow) % 256 ∧
    ∀ f : Flag, getFlag f (sub8Flags a m p) =
      match f with
      | .car => decide (0 ≤ (a.toNat : Int) - m.toNat - borrow)
      | .ovr => decide (a.toInt - m.toInt - borrow < -128 ∨ 127 < a.toInt - m.toInt - borrow)
      | .zer => r == 0
      | .neg => r.getLsbD 7
      | _ => getFlag f p

/-- R124: asl8 and rol8. -/
def Obligations.ShiftFunctionsAreExact : Prop :=
  ∀ v p : Byte,
    (asl8 v).toNat = (2 * v.toNat) % 256 ∧
    (rol8 v p).toNat = (2 * v.toNat) % 256 + (if getFlag .car p then 1 else 0) ∧
    (∀ f : Flag, getFlag f (asl8Flags v p) =
      match f with
      | .car => v.getLsbD 7
      | .zer => asl8 v == 0
      | .neg => (asl8 v).getLsbD 7
      | _ => getFlag f p) ∧
    (∀ f : Flag, getFlag f (rol8Flags v p) =
      match f with
      | .car => v.getLsbD 7
      | .zer => rol8 v p == 0
      | .neg => (rol8 v p).getLsbD 7
      | _ => getFlag f p)

/-- R125: bit_test. -/
def Obligations.BitTestSetsFlags : Prop :=
  ∀ (a m p : Byte) (f : Flag), getFlag f (bitTestFlags a m p) =
    match f with
    | .zer => (a &&& m) == 0
    | .neg => m.getLsbD 7
    | .ovr => m.getLsbD 6
    | _ => getFlag f p

/-! ## What each instruction does in the call that completes it, and in the calls before -/

/-- R141, R142, R143: ORA, AND, EOR. -/
def Obligations.LogicComplete : Prop :=
  Encodes .ora [(0x01, .izx), (0x05, .zp), (0x09, .imm), (0x0D, .abs), (0x19, .absY)] ∧
  Encodes .and [(0x21, .izx), (0x25, .zp), (0x29, .imm), (0x2D, .abs), (0x39, .absY)] ∧
  Encodes .eor [(0x41, .izx), (0x45, .zp), (0x49, .imm), (0x4D, .abs), (0x59, .absY)] ∧
  ∀ (m : Mode) (s : State), OperandReady m s →
    let v := operandByte m s
    exec (.ora m) s = .next { afterOperand m s with a := s.a ||| v, p := setNZ (s.a ||| v) s.p } ∧
    exec (.and m) s = .next { afterOperand m s with a := s.a &&& v, p := setNZ (s.a &&& v) s.p } ∧
    exec (.eor m) s = .next { afterOperand m s with a := s.a ^^^ v, p := setNZ (s.a ^^^ v) s.p }

/-- R144, R148: ADC and SBC, whose arithmetic is add8 and sub8 whatever DEC holds. -/
def Obligations.AddSubtractComplete : Prop :=
  Encodes .adc [(0x61, .izx), (0x65, .zp), (0x69, .imm), (0x6D, .abs), (0x79, .absY)] ∧
  Encodes .sbc [(0xE1, .izx), (0xE5, .zp), (0xE9, .imm), (0xED, .abs), (0xF9, .absY)] ∧
  (∀ (a b p : Byte) (d : Bool), add8 a b (setFlag .dec d p) = add8 a b p ∧ sub8 a b (setFlag .dec d p) = sub8 a b p) ∧
  ∀ (m : Mode) (s : State), OperandReady m s →
    let v := operandByte m s
    exec (.adc m) s = .next { afterOperand m s with a := add8 s.a v s.p, p := add8Flags s.a v s.p } ∧
    exec (.sbc m) s = .next { afterOperand m s with a := sub8 s.a v s.p, p := sub8Flags s.a v s.p }

/-- R146, R236, R237: LDA, LDX, LDY. -/
def Obligations.LoadsComplete : Prop :=
  Encodes .lda [(0xA1, .izx), (0xA5, .zp), (0xA9, .imm), (0xAD, .abs), (0xB9, .absY)] ∧
  Encodes .ldx [(0xA2, .imm), (0xA6, .zp), (0xAE, .abs), (0xBE, .absY)] ∧
  Encodes .ldy [(0xA0, .imm), (0xA4, .zp), (0xAC, .abs)] ∧
  ∀ (m : Mode) (s : State), OperandReady m s →
    let v := operandByte m s
    exec (.lda m) s = .next { afterOperand m s with a := v, p := setNZ v s.p } ∧
    exec (.ldx m) s = .next { afterOperand m s with x := v, p := setNZ v s.p } ∧
    exec (.ldy m) s = .next { afterOperand m s with y := v, p := setNZ v s.p }

/-- R147, R240, R241, R242: CMP, CPX, CPY and BIT change only P. -/
def Obligations.ComparesAndBitComplete : Prop :=
  Encodes .cmp [(0xC1, .izx), (0xC5, .zp), (0xC9, .imm), (0xCD, .abs), (0xD9, .absY)] ∧
  Encodes .cpx [(0xE0, .imm), (0xE4, .zp), (0xEC, .abs)] ∧
  Encodes .cpy [(0xC0, .imm), (0xC4, .zp), (0xCC, .abs)] ∧
  Encodes .bit [(0x24, .zp), (0x2C, .abs)] ∧
  ∀ (m : Mode) (s : State), OperandReady m s →
    let v := operandByte m s
    exec (.cmp m) s = .next { afterOperand m s with p := compareFlags s.a v s.p } ∧
    exec (.cpx m) s = .next { afterOperand m s with p := compareFlags s.x v s.p } ∧
    exec (.cpy m) s = .next { afterOperand m s with p := compareFlags s.y v s.p } ∧
    exec (.bit m) s = .next { afterOperand m s with p := bitTestFlags s.a v s.p }

/-- R145, R238, R239: STA, STX, STY write their register at the effective address; every other byte of memory, every
register and every flag is unchanged. -/
def Obligations.StoresComplete : Prop :=
  Encodes .sta [(0x81, .izx), (0x85, .zp), (0x8D, .abs), (0x99, .absY)] ∧
  Encodes .stx [(0x86, .zp), (0x8E, .abs)] ∧
  Encodes .sty [(0x84, .zp), (0x8C, .abs)] ∧
  ∀ (m : Mode) (s : State), s.phase = .operate → s.foundAddress = true →
    exec (.sta m) s = .next { busWrite s s.accessAddress s.a with phase := .idle } ∧
    exec (.stx m) s = .next { busWrite s s.accessAddress s.x with phase := .idle } ∧
    exec (.sty m) s = .next { busWrite s s.accessAddress s.y with phase := .idle }

/-- R149: 0x89 skips its operand byte and reads nothing. -/
def Obligations.StaImmediateSlotComplete : Prop :=
  decodeOpcode 0x89 = .nopStaImm ∧
  ∀ s : State, s.phase = .c1 →
    exec .nopStaImm s = .next { s with accessAddress := s.pc, pc := s.pc + 1, foundAddress := true, phase := .idle }

/-- R150: an unmodelled-mode opcode under each value of UNMODELLED_MODE_POLICY. -/
def Obligations.UnmodelledModesFollowPolicy : Prop :=
  ∀ (i : Instr) (s : State), isUnmodelled i = true → s.phase = .c1 →
    exec i s =
      match s.cfg.unmodelled with
      | .nop1 => .next { s with phase := .idle }
      | .halt => .next
          { s with events := .illegalOpcode s.ir (s.pc - 1) :: s.events, isRunning := false, phase := .idle }
      | .hang => .next s

/-- R171, R173, R174, R115: ASL and ROL, on A in one execute call, on memory in three parts: read, compute, write. -/
def Obligations.ShiftsComplete : Prop :=
  decodeOpcode 0x0A = .aslA ∧ decodeOpcode 0x2A = .rolA ∧
  Encodes .asl [(0x06, .zp), (0x0E, .abs)] ∧ Encodes .rol [(0x26, .zp), (0x2E, .abs)] ∧
  (∀ s : State, s.phase = .c1 →
    exec .aslA s = .next { s with a := asl8 s.a, p := asl8Flags s.a s.p, phase := .idle } ∧
    exec .rolA s = .next { s with a := rol8 s.a s.p, p := rol8Flags s.a s.p, phase := .idle }) ∧
  ∀ (m : Mode) (s : State), s.foundAddress = true →
    (s.phase = .operate →
      exec (.asl m) s = .next { busRead s s.accessAddress with
        compareOperand := busAnswer s s.accessAddress, phase := .writeback1 } ∧
      exec (.rol m) s = .next { busRead s s.accessAddress with
        compareOperand := busAnswer s s.accessAddress, phase := .writeback1 }) ∧
    (s.phase = .writeback1 →
      exec (.asl m) s = .next { s with
        compareOperand := asl8 s.compareOperand, p := asl8Flags s.compareOperand s.p, phase := .writeback2 } ∧
      exec (.rol m) s = .next { s with
        compareOperand := rol8 s.compareOperand s.p, p := rol8Flags s.compareOperand s.p, phase := .writeback2 }) ∧
    (s.phase = .writeback2 →
      exec (.asl m) s = .next { busWrite s s.accessAddress s.compareOperand with phase := .idle } ∧
      exec (.rol m) s = .next { busWrite s s.accessAddress s.compareOperand with phase := .idle })

/-- R180: in its FetchOffset call a branch goes on, taken, iff the flag that its opcode's top two bits select equals bit 5
of its opcode, and completes otherwise. -/
def Obligations.BranchConditionIsFlagEqualsPolarity : Prop :=
  ∀ (i : Instr) (s : State), isBranch i = true → s.phase = .c1 →
    exec i s = .next { busRead s s.pc with
      offset := busAnswer s s.pc, pc := s.pc + 1, oldPc := s.pc + 1,
      phase := if getFlag (branchFlag (encode i)) s.p = (encode i).getLsbD 5 then .c2 else .idle }

/-- R181 to R189: the eight branches, and the three parts of a branch. Not taken, it completes in its FetchOffset
step; taken within the page, in the next; taken across a page, one later, PC holding the uncorrected sum in between.
-/
def Obligations.BranchPartsComplete : Prop :=
  (decodeOpcode 0x10 = .bpl ∧ decodeOpcode 0x30 = .bmi ∧ decodeOpcode 0x50 = .bvc ∧ decodeOpcode 0x70 = .bvs ∧
    decodeOpcode 0x90 = .bcc ∧ decodeOpcode 0xB0 = .bcs ∧ decodeOpcode 0xD0 = .bne ∧ decodeOpcode 0xF0 = .beq) ∧
  ∀ (i : Instr) (s : State), isBranch i = true →
    (s.phase = .c1 → branchTaken i s.p = some false →
      exec i s = .next { busRead s s.pc with
        offset := busAnswer s s.pc, pc := s.pc + 1, oldPc := s.pc + 1, phase := .idle }) ∧
    (s.phase = .c1 → branchTaken i s.p = some true →
      exec i s = .next { busRead s s.pc with
        offset := busAnswer s s.pc, pc := s.pc + 1, oldPc := s.pc + 1, phase := .c2 }) ∧
    (s.phase = .c2 → highByte (s.oldPc + s.offset.signExtend 16) = highByte s.oldPc →
      exec i s = .next { s with pc := mkWord (highByte s.oldPc) (lowByte s.oldPc + s.offset), phase := .idle }) ∧
    (s.phase = .c2 → highByte (s.oldPc + s.offset.signExtend 16) ≠ highByte s.oldPc →
      exec i s = .next { s with pc := mkWord (highByte s.oldPc) (lowByte s.oldPc + s.offset), phase := .c3 }) ∧
    (s.phase = .c3 → exec i s = .next { s with pc := s.oldPc + s.offset.signExtend 16, phase := .idle })

/-- R191 to R197: the flag instructions write one bit of P. -/
def Obligations.FlagInstructionsComplete : Prop :=
  (decodeOpcode 0x18 = .clc ∧ decodeOpcode 0x38 = .sec ∧ decodeOpcode 0x58 = .cli ∧ decodeOpcode 0x78 = .sei ∧
    decodeOpcode 0xB8 = .clv ∧ decodeOpcode 0xD8 = .cld ∧ decodeOpcode 0xF8 = .sed) ∧
  ∀ s : State, s.phase = .c1 →
    exec .clc s = .next { s with p := s.p &&& ~~~0x01#8, phase := .idle } ∧
    exec .sec s = .next { s with p := s.p ||| 0x01, phase := .idle } ∧
    exec .cli s = .next { s with p := s.p &&& ~~~0x04#8, phase := .idle } ∧
    exec .sei s = .next { s with p := s.p ||| 0x04, phase := .idle } ∧
    exec .clv s = .next { s with p := s.p &&& ~~~0x40#8, phase := .idle } ∧
    exec .cld s = .next { s with p := s.p &&& ~~~0x08#8, phase := .idle } ∧
    exec .sed s = .next { s with p := s.p ||| 0x08, phase := .idle }

/-- R201, R203: PHP and PHA write at 0x0100 + SP and decrement SP; PHP's byte has BRK set, P itself is unchanged. -/
def Obligations.PushesComplete : Prop :=
  decodeOpcode 0x08 = .php ∧ decodeOpcode 0x48 = .pha ∧
  ∀ s : State, s.phase = .c1 →
    let addr : Word := 0x0100 + s.sp.setWidth 16
    exec .php s = .next { busWrite s addr (s.p ||| 0x10) with sp := s.sp - 1, phase := .idle } ∧
    exec .pha s = .next { busWrite s addr s.a with sp := s.sp - 1, phase := .idle }

/-- R202, R204: PLP and PLA increment SP and read at 0x0100 + SP; PLP clears BRK and treats bit 5 as PLP_IGN_POLICY
says, PLA sets NEG and ZER. -/
def Obligations.PullsComplete : Prop :=
  decodeOpcode 0x28 = .plp ∧ decodeOpcode 0x68 = .pla ∧
  ∀ s : State, s.phase = .c1 →
    let addr : Word := 0x0100 + (s.sp + 1).setWidth 16
    let v := busAnswer s addr
    exec .plp s = .next { busRead s addr with
      sp := s.sp + 1,
      p := (match s.cfg.plpIgn with
        | .forceOne => (v &&& ~~~0x10#8) ||| 0x20
        | .fromStack => v &&& ~~~0x10#8),
      phase := .idle } ∧
    exec .pla s = .next { busRead s addr with sp := s.sp + 1, a := v, p := setNZ v s.p, phase := .idle }

/-- R206: the four parts of JSR. -/
def Obligations.JsrPartsComplete : Prop :=
  decodeOpcode 0x20 = .jsr ∧
  ∀ s : State,
    (s.phase = .c1 → exec .jsr s = .next { busRead s s.pc with
      accessAddress := mkWord (highByte s.accessAddress) (busAnswer s s.pc), pc := s.pc + 1, phase := .c2 }) ∧
    (s.phase = .c2 → exec .jsr s = .next { busRead s s.pc with
      accessAddress := mkWord (busAnswer s s.pc) (lowByte s.accessAddress), pc := s.pc + 1, phase := .c3 }) ∧
    (s.phase = .c3 → exec .jsr s = .next { busWrite s (0x0100 + s.sp.setWidth 16) (highByte (s.pc - 1)) with
      oldPc := s.pc - 1, sp := s.sp - 1, phase := .c4 }) ∧
    (s.phase = .c4 → exec .jsr s = .next { busWrite s (0x0100 + s.sp.setWidth 16) (lowByte s.oldPc) with
      sp := s.sp - 1, pc := s.accessAddress, phase := .idle })

/-- R207: the three parts of RTS. -/
def Obligations.RtsPartsComplete : Prop :=
  decodeOpcode 0x60 = .rts ∧
  ∀ s : State,
    let addr : Word := 0x0100 + (s.sp + 1).setWidth 16
    (s.phase = .c1 → exec .rts s = .next { busRead s s.pc with phase := .c2 }) ∧
    (s.phase = .c2 → exec .rts s = .next { busRead s addr with
      sp := s.sp + 1, accessAddress := mkWord (highByte s.accessAddress) (busAnswer s addr), phase := .c3 }) ∧
    (s.phase = .c3 → exec .rts s = .next { busRead s addr with
      sp := s.sp + 1,
      accessAddress := mkWord (busAnswer s addr) (lowByte s.accessAddress),
      pc := mkWord (busAnswer s addr) (lowByte s.accessAddress) + 1, phase := .idle })

/-- R208, R209: the parts of JMP absolute and of JMP indirect. -/
def Obligations.JumpPartsComplete : Prop :=
  decodeOpcode 0x4C = .jmpAbs ∧ decodeOpcode 0x6C = .jmpInd ∧
  ∀ s : State,
    (s.phase = .c1 →
      exec .jmpAbs s = .next { busRead s s.pc with
        accessAddress := mkWord (highByte s.accessAddress) (busAnswer s s.pc), pc := s.pc + 1, phase := .c2 } ∧
      exec .jmpInd s = .next { busRead s s.pc with
        indirectAddress := mkWord (highByte s.indirectAddress) (busAnswer s s.pc), pc := s.pc + 1, phase := .c2 }) ∧
    (s.phase = .c2 →
      exec .jmpAbs s = .next { busRead s s.pc with
        accessAddress := mkWord (busAnswer s s.pc) (lowByte s.accessAddress),
        pc := mkWord (busAnswer s s.pc) (lowByte s.accessAddress), phase := .idle } ∧
      exec .jmpInd s = .next { busRead s s.pc with
        indirectAddress := mkWord (busAnswer s s.pc) (lowByte s.indirectAddress), pc := s.pc + 1, phase := .c3 }) ∧
    (s.phase = .c3 → exec .jmpInd s = .next { s with phase := .c4 }) ∧
    (s.phase = .c4 → exec .jmpInd s = .next { busRead s s.indirectAddress with
      accessAddress := mkWord (highByte s.accessAddress) (busAnswer s s.indirectAddress), phase := .c5 }) ∧
    (s.phase = .c5 → exec .jmpInd s = .next { busRead s (s.indirectAddress + 1) with
      accessAddress := mkWord (busAnswer s (s.indirectAddress + 1)) (lowByte s.accessAddress),
      pc := mkWord (busAnswer s (s.indirectAddress + 1)) (lowByte s.accessAddress), phase := .idle })

/-- R221 to R224: the transfers. -/
def Obligations.TransfersComplete : Prop :=
  (decodeOpcode 0xAA = .tax ∧ decodeOpcode 0x8A = .txa ∧ decodeOpcode 0xA8 = .tay ∧ decodeOpcode 0x98 = .tya) ∧
  ∀ s : State, s.phase = .c1 →
    exec .tax s = .next { s with x := s.a, p := setNZ s.a s.p, phase := .idle } ∧
    exec .txa s = .next { s with a := s.x, p := setNZ s.x s.p, phase := .idle } ∧
    exec .tay s = .next { s with y := s.a, p := setNZ s.a s.p, phase := .idle } ∧
    exec .tya s = .next { s with a := s.y, p := setNZ s.y s.p, phase := .idle }

/-- R225 to R230: the increments and decrements, modulo 256. -/
def Obligations.IncrementsDecrementsComplete : Prop :=
  (decodeOpcode 0xE8 = .inx ∧ decodeOpcode 0xC8 = .iny ∧ decodeOpcode 0xCA = .dex ∧ decodeOpcode 0x88 = .dey ∧
    decodeOpcode 0x1A = .incA ∧ decodeOpcode 0x3A = .decA) ∧
  ∀ s : State, s.phase = .c1 →
    exec .inx s = .next { s with x := s.x + 1, p := setNZ (s.x + 1) s.p, phase := .idle } ∧
    exec .iny s = .next { s with y := s.y + 1, p := setNZ (s.y + 1) s.p, phase := .idle } ∧
    exec .dex s = .next { s with x := s.x - 1, p := setNZ (s.x - 1) s.p, phase := .idle } ∧
    exec .dey s = .next { s with y := s.y - 1, p := setNZ (s.y - 1) s.p, phase := .idle } ∧
    exec .incA s = .next { s with a := s.a + 1, p := setNZ (s.a + 1) s.p, phase := .idle } ∧
    exec .decA s = .next { s with a := s.a - 1, p := setNZ (s.a - 1) s.p, phase := .idle }

/-- R255, R257: NOP does nothing; DBG emits the trace event and does nothing else. -/
def Obligations.NopAndTraceComplete : Prop :=
  decodeOpcode 0xEA = .nop ∧ decodeOpcode 0x02 = .dbg ∧
  ∀ s : State, s.phase = .c1 →
    exec .nop s = .next { s with phase := .idle } ∧
    exec .dbg s = .next { s with
      events := .trace s.a s.x s.y s.p s.ir s.sp s.pc s.instructionCount :: s.events, phase := .idle }

/-- R258, R259, R301: BRK halts with no diagnostic; an illegal opcode reports IR and the address it was fetched at,
and halts. Nothing but is_running, `cycle` and the event channel changes. -/
def Obligations.HaltsComplete : Prop :=
  decodeOpcode 0x00 = .brk ∧ (∀ opcode ∈ illegalOpcodes, decodeOpcode opcode = .illegal opcode) ∧
  ∀ s : State, s.phase = .c1 →
    exec .brk s = .next { s with isRunning := false, phase := .idle } ∧
    ∀ opcode : Byte, exec (.illegal opcode) s = .next { s with
      events := .illegalOpcode s.ir (s.pc - 1) :: s.events, isRunning := false, phase := .idle }

/-! ## Frames and rules of the whole machine -/

/-- R21, R22, R23: A, X and Y are written only by the instructions these rules list. -/
def Obligations.GeneralRegistersWrittenOnlyByListed : Prop :=
  ∀ (i : Instr) (s t : State), exec i s = .next t →
    (writesA i = false → t.a = s.a) ∧ (writesX i = false → t.x = s.x) ∧ (writesY i = false → t.y = s.y)

/-- R29: each flag is written only by the instructions R29's table lists; all of P is unchanged by an instruction with
no row there. R26: BRK is cleared by PLP. -/
def Obligations.FlagsWrittenOnlyByListed : Prop :=
  ∀ (i : Instr) (s t : State), exec i s = .next t →
    (∀ f : Flag, writesFlag f i = false → getFlag f t.p = getFlag f s.p) ∧
    ((∀ f : Flag, writesFlag f i = false) → t.p = s.p) ∧
    (getFlag .brk s.p = false → getFlag .brk t.p = false)

/-- R31: SP is moved only by the pushing and pulling instructions, by at most one a call. -/
def Obligations.StackPointerMovedOnlyByStackInstructions : Prop :=
  ∀ (i : Instr) (s t : State), exec i s = .next t →
    (movesSp i = false → t.sp = s.sp) ∧ (t.sp = s.sp ∨ t.sp = s.sp - 1 ∨ t.sp = s.sp + 1)

/-- R32, R35, R311: IR, its fields and instruction_count are written only by the fetch step; no instruction writes
reset_delay, the parameters or the bus binding. -/
def Obligations.FetchFieldsWrittenOnlyByFetch : Prop :=
  ∀ (i : Instr) (s t : State), exec i s = .next t →
    (s.phase ≠ .idle →
      t.ir = s.ir ∧ t.aaa = s.aaa ∧ t.bbb = s.bbb ∧ t.cc = s.cc ∧ t.instructionCount = s.instructionCount) ∧
    t.resetDelay = s.resetDelay ∧ t.cfg = s.cfg ∧ t.readBound = s.readBound ∧ t.writeBound = s.writeBound

/-- R37 to R41, R45: the scratch fields are written only by the instructions these rules name, found_address only by
the fetch, the resolver and 0x89. -/
def Obligations.ScratchFieldsWrittenOnlyByListed : Prop :=
  ∀ (i : Instr) (s t : State), exec i s = .next t →
    (writesAccessAddress i = false → t.accessAddress = s.accessAddress) ∧
    (writesIndirectAddress i = false → t.indirectAddress = s.indirectAddress) ∧
    (writesOldPc i = false → t.oldPc = s.oldPc) ∧
    (isBranch i = false → t.offset = s.offset) ∧
    (latchesOperand i = false → t.compareOperand = s.compareOperand) ∧
    (s.phase ≠ .idle → operandMode i = none → i ≠ .nopStaImm → t.foundAddress = s.foundAddress)

/-- R114, R115, R17, over the model's host memory (log entry 6): the memory frame of every instruction. A call that
stores writes one byte, at the address and with the value `stores` computes; every other byte, and every byte in a
call that stores nothing, reads as before. -/
def Obligations.MemoryChangesOnlyWhereStored : Prop :=
  ∀ (i : Instr) (s t : State), i.wf = true → Memory.wf s.mem = true → exec i s = .next t →
    (∀ (addr : Word) (v : Byte), stores i s = some (addr, v) →
      readByte t.mem addr.toNat = v ∧
      ∀ other : Nat, other ≠ addr.toNat → readByte t.mem other = readByte s.mem other) ∧
    (stores i s = none → ∀ addr : Nat, readByte t.mem addr = readByte s.mem addr)

/-- R60, R116, by the model's log of accesses (log entry 7): each call makes exactly the bus access its schedule
lists, with the byte the host answered or was sent. -/
def Obligations.BusAccessesFollowSchedule : Prop :=
  ∀ (i : Instr) (s t : State), i.wf = true → exec i s = .next t →
    t.busLog = (busAccess i s).toList ++ s.busLog

/-- R59: a step performs at most one bus access, told by the model's log of accesses (log entry 7). That a step never makes
both a read and a write, which this says with it, is R59's second sentence, the spec's own inference. -/
def Obligations.OneBusAccessPerStep : Prop :=
  ∀ s t : State, step s = .next t → t.busLog = s.busLog ∨ ∃ access : BusAccess, t.busLog = access :: s.busLog

/-- R9, R300, R316: only DBG and the illegal-opcode trap emit an event, at most one a call; only BRK and the trap
clear is_running; nothing sets it. Under UNMODELLED_MODE_POLICY = halt the unmodelled-mode opcodes take the same trap.
-/
def Obligations.OnlyDbgAndTrapsEmitOrHalt : Prop :=
  ∀ (i : Instr) (s t : State), exec i s = .next t →
    let traps := (∃ opcode, i = .illegal opcode) ∨ (isUnmodelled i = true ∧ s.cfg.unmodelled = .halt)
    (t.events = s.events ∨
      (i = .dbg ∧ s.phase = .c1 ∧ t.events = traceEvent s :: s.events) ∨
      (traps ∧ s.phase = .c1 ∧ t.events = .illegalOpcode s.ir (s.pc - 1) :: s.events)) ∧
    (t.isRunning = s.isRunning ∨ (t.isRunning = false ∧ s.phase = .c1 ∧ (i = .brk ∨ traps)))

/-- The malformed addressing/cycle state (spec/93_implementation_defined.md I4) has no step: a phase the instruction
has no part for, or found_address against the phase for a resolver instruction (R44 (b)), is stuck. -/
def Obligations.MalformedPhaseIsStuck : Prop :=
  ∀ (i : Instr) (s : State), i.wf = true → s.phase ≠ .idle →
    (s.phase ∉ busyPhases i → exec i s = .fault .malformedPhase) ∧
    (operandMode i ≠ none → s.foundAddress ≠ isAddressReady s.phase → exec i s = .fault .malformedPhase)

/-- R65, R337, on a RAM host (log entries 5 and 6): every call that stores (a store, the write-back of a shift, a push)
answers a next state, and where it ends its instruction, the next step fetches the stored byte if it stands at the next
opcode's address, and the step after that has it to read at PC if it stands at the next operand's. -/
def Obligations.StoreIsSeenByNextFetch : Prop :=
  ∀ (s : State) (addr : Word) (v : Byte), Executing s → Memory.wf s.mem = true → s.answers = [] → s.phase ≠ .idle →
    (operandMode (decodeOpcode s.ir) ≠ none → s.foundAddress = true) → stores (decodeOpcode s.ir) s = some (addr, v) →
    ∃ t : State, step s = .next t ∧
      (t.phase = .idle → t.pc = addr → ∃ u : State, step t = .next u ∧ u.ir = v ∧ u.pc = addr + 1 ∧ u.phase = .c1) ∧
      (t.phase = .idle → t.pc + 1 = addr → ∃ u : State, step t = .next u ∧ u.pc = addr ∧ busAnswer u u.pc = v)

/-! ## Invariants -/

/-- The invariant holds at State.reset, whose SP and reset_delay are the model's choice (log entry 3). -/
def Obligations.ResetStateIsInvariant : Prop := Inv State.reset

/-- The invariant holds after any reset, with any parameters within R12's limits and any canonical memory. -/
def Obligations.HostResetEstablishesInvariant : Prop :=
  ∀ (giveRead giveWrite : Bool) (s t : State), s.cfg.Wf → Memory.wf s.mem = true →
    hostReset giveRead giveWrite s = .next t → Inv t

/-- R44: every step keeps the invariant. -/
def Obligations.StepKeepsInvariant : Prop :=
  ∀ s t : State, Inv s → step s = .next t → Inv t

/-- R33, R87: from a state that meets the invariant every step answers a next state: nothing is stuck, faults or is
refused. -/
def Obligations.InvariantStatesAlwaysStep : Prop :=
  ∀ s : State, Inv s → ∃ t : State, step s = .next t

/-! ## Encoding -/

/-- R75 to R85: decoding the opcode of a well-formed instruction gives it back, with every mode, slot and illegal
byte. -/
def Obligations.DecodeOfEncodeIsIdentity : Prop :=
  ∀ i : Instr, i.wf = true → decodeOpcode (encode i) = i

/-- R87: every byte decodes to a well-formed instruction whose opcode it is; R80: it is illegal exactly when R80 lists
it. -/
def Obligations.EveryByteIsOneInstruction : Prop :=
  ∀ b : Byte, (decodeOpcode b).wf = true ∧ encode (decodeOpcode b) = b ∧
    (decodeOpcode b = .illegal b ↔ b ∈ illegalOpcodes)

/-- Words written out from the encoding rules, bit by bit: R73 and R76 (LDA #, STA abs,Y), R77 (an unmodelled ORA),
R78 (ROL abs), R83 (BEQ), R84 (CLV), R85 (PLA), R79 (JSR, TAX, CPX zp, DBG), R82 (0x89). -/
def Obligations.OpcodeWordsDecode : Prop :=
  decodeOpcode 0b10101001 = .lda .imm ∧ decodeOpcode 0b10011001 = .sta .absY ∧
  decodeOpcode 0b00010001 = .unmodelledOra 0b100 ∧ decodeOpcode 0b00101110 = .rol .abs ∧
  decodeOpcode 0b11110000 = .beq ∧ decodeOpcode 0b10111000 = .clv ∧ decodeOpcode 0b01101000 = .pla ∧
  decodeOpcode 0b00100000 = .jsr ∧ decodeOpcode 0b10101010 = .tax ∧ decodeOpcode 0b11100100 = .cpx .zp ∧
  decodeOpcode 0b00000010 = .dbg ∧ decodeOpcode 0b10001001 = .nopStaImm

/-- R88: the offset byte an assembler gives a branch leads a taken branch to its label. -/
def Obligations.BranchOffsetReachesLabel : Prop :=
  ∀ (source target : Word) (offset : Byte), branchOffset source target = some offset →
    branchTarget (source + 2) offset = target

/-! ## Whole instructions -/

/-- R106, R108 to R111: what each call of the resolver leaves, for every answer of the host (immediate mode, whose one call
also operates, is in the statements of its instructions). R72: run from its fetch by a RAM host, the resolver computes the
effective address of R72 in the calls of its mode, and PC is past the instruction. -/
def Obligations.ResolverComputesEffectiveAddress : Prop :=
  (∀ (i : Instr) (s : State), s.foundAddress = false →
    let byte := busAnswer s s.pc
    (operandMode i = some .zp → s.phase = .c1 → exec i s = .next { busRead s s.pc with
      accessAddress := byte.setWidth 16, pc := s.pc + 1, foundAddress := true, phase := .operate }) ∧
    (operandMode i = some .abs ∨ operandMode i = some .absY → s.phase = .c1 → exec i s = .next { busRead s s.pc with
      accessAddress := mkWord (highByte s.accessAddress) byte, pc := s.pc + 1, phase := .c2 }) ∧
    (operandMode i = some .abs → s.phase = .c2 → exec i s = .next { busRead s s.pc with
      accessAddress := mkWord byte (lowByte s.accessAddress), pc := s.pc + 1, foundAddress := true, phase := .operate }) ∧
    (operandMode i = some .absY → s.phase = .c2 → exec i s = .next { busRead s s.pc with
      accessAddress := mkWord byte (lowByte s.accessAddress) + s.y.setWidth 16, pc := s.pc + 1,
      foundAddress := true, phase := .operate }) ∧
    (operandMode i = some .izx → s.phase = .c1 → exec i s = .next { busRead s s.pc with
      indirectAddress := (byte + s.x).setWidth 16, pc := s.pc + 1, phase := .c2 }) ∧
    (operandMode i = some .izx → s.phase = .c2 → exec i s = .next { busRead s s.indirectAddress with
      accessAddress := mkWord (highByte s.accessAddress) (busAnswer s s.indirectAddress), phase := .c3 }) ∧
    (operandMode i = some .izx → s.phase = .c3 →
      let successor : Word := (lowByte s.indirectAddress + 1).setWidth 16
      exec i s = .next { busRead s successor with
        accessAddress := mkWord (busAnswer s successor) (lowByte s.accessAddress),
        foundAddress := true, phase := .operate })) ∧
  ∀ (i : Instr) (m : Mode) (s : State), i.wf = true → operandMode i = some m → m ≠ .imm → AtInstr i s →
    ∃ log : List BusAccess, log.length = m.calls - 1 ∧
      run (m.calls - 1) s = .next { afterResolving i m s with
        phase := .operate, answers := [], busLog := log ++ s.busLog }

/-- R113, R116, R141 to R148, R236 to R242: every read-class instruction in every mode, whole: from its fetch, in the
calls of its mode, its result in A, X, Y and P, PC past it, its operand latched, and nothing else changed. -/
def Obligations.ReadInstructionsEndToEnd : Prop :=
  ∀ (i : Instr) (m : Mode) (s : State) (a x y p : Byte), i.wf = true → operandMode i = some m → AtInstr i s →
    readResult i (readByte s.mem (effectiveAddress m { s with pc := s.pc + 1 }).toNat) s = some (a, x, y, p) →
    ∃ log : List BusAccess, log.length = i.calls ∧
      run i.calls s = .next { afterResolving i m s with
        a := a, x := x, y := y, p := p,
        compareOperand := readByte s.mem (effectiveAddress m { s with pc := s.pc + 1 }).toNat,
        phase := .idle, busLog := log ++ s.busLog }

/-- R114, R115, R145, R172 to R174, R238, R239: every store and every shift on memory, whole: the one byte written at
the effective address, the flags of a shift, PC past the instruction, and nothing else changed. -/
def Obligations.MemoryWritersEndToEnd : Prop :=
  ∀ (i : Instr) (m : Mode) (s : State), i.wf = true → operandMode i = some m → AtInstr i s →
    let ea := effectiveAddress m { s with pc := s.pc + 1 }
    (∀ v : Byte, storedRegister i s = some v →
      ∃ log : List BusAccess, run i.calls s = .next { afterResolving i m s with
        mem := writeByte s.mem ea.toNat v, phase := .idle, busLog := .write ea v :: log ++ s.busLog }) ∧
    (∀ r p : Byte, shiftResult i (readByte s.mem ea.toNat) s.p = some (r, p) →
      ∃ log : List BusAccess, run i.calls s = .next { afterResolving i m s with
        mem := writeByte s.mem ea.toNat r, p := p, compareOperand := r, phase := .idle,
        busLog := .write ea r :: log ++ s.busLog })

/-- R181, R339, on a RAM host: a branch, whole: 2 calls not taken, 3 taken within the page, 4 taken across a page; PC at the
next instruction or at the target, the offset and its base latched, the two reads made, and nothing else changed but what
the fetch writes. -/
def Obligations.BranchesEndToEnd : Prop :=
  ∀ (i : Instr) (taken : Bool) (s : State), AtInstr i s → branchTaken i s.p = some taken →
    let offset := readByte s.mem (s.pc + 1).toNat
    let next := s.pc + 2
    let target := next + offset.signExtend 16
    let calls := if taken = false then 2 else if highByte target = highByte next then 3 else 4
    run calls s = .next { s with
      ir := encode i, aaa := opcodeAaa (encode i), bbb := opcodeBbb (encode i), cc := opcodeCc (encode i),
      instructionCount := (s.instructionCount + 1) % 2 ^ s.cfg.icountWidth, foundAddress := false,
      pc := if taken then target else next, oldPc := next, offset := offset,
      busLog := .read (s.pc + 1) offset :: .read s.pc (encode i) :: s.busLog }

/-- R210: JSR followed immediately by RTS returns to the instruction after the JSR with SP restored, whatever the
operand, on a RAM host, when neither pushed byte falls on the RTS. -/
def Obligations.JsrThenRtsReturns : Prop :=
  ∀ s : State, AtInstr .jsr s → Memory.wf s.mem = true →
    let target := mkWord (readByte s.mem (s.pc + 2).toNat) (readByte s.mem (s.pc + 1).toNat)
    readByte s.mem target.toNat = encode .rts → target ≠ stackAddr s.sp → target ≠ stackAddr (s.sp - 1) →
    ∃ t : State, run 9 s = .next t ∧ t.phase = .idle ∧ t.isRunning = true ∧ t.pc = s.pc + 3 ∧ t.sp = s.sp ∧
      t.a = s.a ∧ t.x = s.x ∧ t.y = s.y ∧ t.p = s.p

/-- R206, R208, R209: the jumps, whole, on a RAM host: the target in PC after 3, 6 and 5 calls; JSR leaves its return
address minus one on the stack, the high byte above the low one, and SP two lower; nothing else in memory changes. -/
def Obligations.JumpsEndToEnd : Prop :=
  ∀ s : State,
    let word := mkWord (readByte s.mem (s.pc + 2).toNat) (readByte s.mem (s.pc + 1).toNat)
    let same (t : State) : Prop := t.phase = .idle ∧ t.isRunning = true ∧ t.a = s.a ∧ t.x = s.x ∧ t.y = s.y ∧ t.p = s.p
    (AtInstr .jmpAbs s → ∃ t : State, run 3 s = .next t ∧ same t ∧ t.pc = word ∧ t.sp = s.sp ∧ t.mem = s.mem) ∧
    (AtInstr .jmpInd s → ∃ t : State, run 6 s = .next t ∧ same t ∧
      t.pc = mkWord (readByte s.mem (word + 1).toNat) (readByte s.mem word.toNat) ∧ t.sp = s.sp ∧ t.mem = s.mem) ∧
    (AtInstr .jsr s → ∃ t : State, run 5 s = .next t ∧ same t ∧ t.pc = word ∧ t.sp = s.sp - 2 ∧
      t.mem = writeByte (writeByte s.mem (stackAddr s.sp).toNat (highByte (s.pc + 2)))
        (stackAddr (s.sp - 1)).toNat (lowByte (s.pc + 2)))

/-- R302, R304, R308: BRK and an illegal opcode, whole: from the fetch, two calls; they stop the core with only what
the fetch changed, is_running and, for an illegal opcode, its event; further calls change nothing. -/
def Obligations.HaltsEndToEnd : Prop :=
  ∀ (i : Instr) (s : State) (extra : Nat), i = .brk ∨ (∃ opcode, i = .illegal opcode ∧ i.wf = true) → AtInstr i s →
    run (2 + extra) s = .next { s with
      ir := encode i, aaa := opcodeAaa (encode i), bbb := opcodeBbb (encode i), cc := opcodeCc (encode i),
      instructionCount := (s.instructionCount + 1) % 2 ^ s.cfg.icountWidth, foundAddress := false, pc := s.pc + 1,
      isRunning := false,
      events := if i = .brk then s.events else .illegalOpcode (encode i) s.pc :: s.events,
      busLog := .read s.pc (encode i) :: s.busLog }

/-- R340, R104: an instruction that is no branch is complete after exactly its calls and not before, whatever the host
answers to its reads, unless UNMODELLED_MODE_POLICY makes it hang. -/
def Obligations.InstructionTakesItsCalls : Prop :=
  ∀ (i : Instr) (s : State), i.wf = true → isBranch i = false → Executing s → s.phase = .idle →
    busAnswer s s.pc = encode i → s.cfg.unmodelled ≠ .hang →
    (∃ t : State, run i.calls s = .next t ∧ t.phase = .idle) ∧
    ∀ k : Nat, 0 < k → k < i.calls → ∃ t : State, run k s = .next t ∧ t.phase ≠ .idle
end

