-- ==== Sys2Proof/Laws/Memory.lean ====
section
/-! SUPPORT. The laws of the host's memory: read after write, the canonical form, and that canonical memories with the
same bytes are equal. -/

namespace Sys2Proof.Laws

open Sys2Proof.Machine

@[simp] theorem readByte_nil (addr : Nat) : readByte [] addr = unlistedByte := rfl

theorem readByte_cons (k : Nat) (v : Byte) (rest : Memory) (addr : Nat) :
    readByte ((k, v) :: rest) addr = if k = addr then v else readByte rest addr := rfl

/-- The list part of the canonical form at a non-empty memory. -/
theorem wf_cons (k : Nat) (v : Byte) (rest : Memory) :
    Memory.wf ((k, v) :: rest) = true ↔
      k < 65536 ∧ v ≠ unlistedByte ∧ (∀ c ∈ rest, k < c.1) ∧ Memory.wf rest = true := by
  simp [Memory.wf, and_assoc]

/-- An address below every listed one is unlisted. -/
theorem readByte_below (m : Memory) (addr : Nat) (h : ∀ c ∈ m, addr < c.1) : readByte m addr = unlistedByte := by
  induction m with
  | nil => rfl
  | cons c rest ih =>
    obtain ⟨k, v⟩ := c
    have hk : addr < k := h (k, v) (by simp)
    rw [readByte_cons, if_neg (by omega)]
    exact ih fun c hc => h c (by simp [hc])

/-- Every address listed after a write is the written one or was listed before. -/
theorem mem_writeByte (m : Memory) (addr : Nat) (v : Byte) (c : Host.Cell) (h : c ∈ writeByte m addr v) :
    c.1 = addr ∨ c ∈ m := by
  induction m with
  | nil =>
    simp only [writeByte] at h
    split at h <;> simp_all
  | cons d rest ih =>
    obtain ⟨k, w⟩ := d
    simp only [writeByte] at h
    split at h
    · split at h
      · exact .inr h
      · rcases List.mem_cons.1 h with rfl | h
        · exact .inl rfl
        · exact .inr h
    · split at h
      · split at h
        · exact .inr (by simp [h])
        · rcases List.mem_cons.1 h with rfl | h
          · exact .inl rfl
          · exact .inr (by simp [h])
      · rcases List.mem_cons.1 h with rfl | h
        · exact .inr (by simp)
        · rcases ih h with h | h
          · exact .inl h
          · exact .inr (by simp [h])

/-- A write keeps the canonical form. -/
theorem writeByte_wf (m : Memory) (addr : Nat) (v : Byte) (ha : addr < 65536) (hm : Memory.wf m = true) :
    Memory.wf (writeByte m addr v) = true := by
  induction m with
  | nil =>
    simp only [writeByte]
    split
    · rfl
    · simp_all [Memory.wf]
  | cons d rest ih =>
    obtain ⟨k, w⟩ := d
    obtain ⟨hk, hw, hlt, hrest⟩ := (wf_cons k w rest).1 hm
    simp only [writeByte]
    split
    · split
      · exact hm
      · refine (wf_cons _ _ _).2 ⟨ha, ‹_›, ?_, hm⟩
        intro c hc
        rcases List.mem_cons.1 hc with rfl | hc
        · assumption
        · have := hlt c hc; omega
    · split
      · split
        · exact hrest
        · subst_vars
          exact (wf_cons _ _ _).2 ⟨ha, ‹_›, hlt, hrest⟩
      · refine (wf_cons _ _ _).2 ⟨hk, hw, ?_, ih hrest⟩
        intro c hc
        rcases mem_writeByte rest addr v c hc with h | h
        · omega
        · exact hlt c h

/-- A read after a write to the same address gives the byte written. -/
theorem readByte_writeByte_same (m : Memory) (addr : Nat) (v : Byte) (hm : Memory.wf m = true) :
    readByte (writeByte m addr v) addr = v := by
  induction m with
  | nil =>
    simp only [writeByte]
    split <;> simp_all [readByte_cons]
  | cons d rest ih =>
    obtain ⟨k, w⟩ := d
    obtain ⟨hk, hw, hlt, hrest⟩ := (wf_cons k w rest).1 hm
    simp only [writeByte]
    split
    · split
      · rw [readByte_cons, if_neg (by omega), readByte_below rest addr fun c hc => by have := hlt c hc; omega]
        simp_all
      · simp [readByte_cons]
    · split
      · subst_vars
        split
        · rw [readByte_below rest k hlt]; simp_all
        · simp [readByte_cons]
      · rw [readByte_cons, if_neg (by omega)]
        exact ih hrest

/-- A write leaves every other address alone. -/
theorem readByte_writeByte_other (m : Memory) (addr other : Nat) (v : Byte) (h : other ≠ addr) :
    readByte (writeByte m addr v) other = readByte m other := by
  induction m with
  | nil =>
    simp only [writeByte]
    split
    · rfl
    · rw [readByte_cons, if_neg (by omega)]
  | cons d rest ih =>
    obtain ⟨k, w⟩ := d
    simp only [writeByte]
    split
    · split
      · rfl
      · rw [readByte_cons, if_neg (by omega)]
    · split
      · subst_vars
        split <;> rw [readByte_cons, if_neg (by omega)]
        rw [readByte_cons, if_neg (by omega)]
      · rw [readByte_cons, readByte_cons, ih]

/-- Reading back through one write, in one equation. -/
theorem readByte_writeByte (m : Memory) (addr other : Nat) (v : Byte) (hm : Memory.wf m = true) :
    readByte (writeByte m addr v) other = if other = addr then v else readByte m other := by
  split
  · subst_vars; exact readByte_writeByte_same m _ v hm
  · exact readByte_writeByte_other m addr other v ‹_›

/-- A listed byte of a canonical memory is not the unlisted one. -/
theorem readByte_head_ne (k : Nat) (v : Byte) (rest : Memory) (hm : Memory.wf ((k, v) :: rest) = true) :
    readByte ((k, v) :: rest) k ≠ unlistedByte := by
  simpa [readByte_cons] using ((wf_cons k v rest).1 hm).2.1

/-- Canonical memories that read the same everywhere are equal: equal memories are equal data. -/
theorem memory_ext (m n : Memory) (hm : Memory.wf m = true) (hn : Memory.wf n = true)
    (h : ∀ addr, readByte m addr = readByte n addr) : m = n := by
  induction m generalizing n with
  | nil =>
    cases n with
    | nil => rfl
    | cons d rest => exact absurd (h d.1).symm (by simpa using readByte_head_ne d.1 d.2 rest hn)
  | cons c rest ih =>
    obtain ⟨k, v⟩ := c
    obtain ⟨-, hv, hlt, hrest⟩ := (wf_cons k v rest).1 hm
    cases n with
    | nil => exact absurd (h k) (readByte_head_ne k v rest hm)
    | cons d rest' =>
      obtain ⟨k', v'⟩ := d
      obtain ⟨-, hv', hlt', hrest'⟩ := (wf_cons k' v' rest').1 hn
      have hk : k = k' := by
        rcases Nat.lt_trichotomy k k' with hlt1 | heq | hgt
        · refine absurd ?_ (readByte_head_ne k v rest hm)
          rw [h k]
          refine readByte_below _ _ fun c hc => ?_
          rcases List.mem_cons.1 hc with rfl | hc
          · exact hlt1
          · have := hlt' c hc; omega
        · exact heq
        · refine absurd ?_ (readByte_head_ne k' v' rest' hn)
          rw [← h k']
          refine readByte_below _ _ fun c hc => ?_
          rcases List.mem_cons.1 hc with rfl | hc
          · exact hgt
          · have := hlt c hc; omega
      subst hk
      have hvv : v = v' := by simpa [readByte_cons] using h k
      subst hvv
      refine congrArg _ (ih rest' hrest hrest' fun addr => ?_)
      by_cases ha : k = addr
      · subst ha
        rw [readByte_below rest k hlt, readByte_below rest' k hlt']
      · simpa [readByte_cons, ha] using h addr

/-- The memory of a fresh reset is canonical. -/
theorem reset_mem_wf : Memory.wf State.reset.mem = true := rfl

/-- Placing bytes keeps the canonical form. -/
theorem placeBytes_wf (bytes : List Byte) (m : Memory) (addr : Word) (hm : Memory.wf m = true) :
    Memory.wf (placeBytes m addr bytes) = true := by
  induction bytes generalizing m addr with
  | nil => exact hm
  | cons b rest ih => exact ih _ _ (writeByte_wf m _ b addr.isLt hm)

/-- So does every operation of State that writes memory. -/
theorem busWrite_memWf (s : State) (addr : Word) (v : Byte) (h : Memory.wf s.mem = true) :
    Memory.wf (busWrite s addr v).mem = true :=
  writeByte_wf s.mem _ v addr.isLt h

theorem push_memWf (s : State) (v : Byte) (h : Memory.wf s.mem = true) : Memory.wf (push s v).mem = true :=
  busWrite_memWf s _ v h

theorem hostPoke_memWf (s : State) (addr : Word) (v : Byte) (h : Memory.wf s.mem = true) :
    Memory.wf (hostPoke addr v s).mem = true :=
  writeByte_wf s.mem _ v addr.isLt h

theorem placeInstruction_memWf (s : State) (bytes : List Byte) (h : Memory.wf s.mem = true) :
    Memory.wf (placeInstruction s bytes).mem = true :=
  placeBytes_wf bytes s.mem s.pc h

end Sys2Proof.Laws
end

