-- ==== Sys2Proof/Laws/State.lean ====
section
/-! SUPPORT. What each named operation leaves in each field of State: one lemma per field per operation, so that no later
proof unfolds a record update. -/

namespace Sys2Proof.Laws

open Sys2Proof.Machine

variable (s : State)

/-! busRead -/

@[simp] theorem busRead_a (addr : Word) : (busRead s addr).a = s.a := rfl
@[simp] theorem busRead_x (addr : Word) : (busRead s addr).x = s.x := rfl
@[simp] theorem busRead_y (addr : Word) : (busRead s addr).y = s.y := rfl
@[simp] theorem busRead_p (addr : Word) : (busRead s addr).p = s.p := rfl
@[simp] theorem busRead_pc (addr : Word) : (busRead s addr).pc = s.pc := rfl
@[simp] theorem busRead_sp (addr : Word) : (busRead s addr).sp = s.sp := rfl
@[simp] theorem busRead_ir (addr : Word) : (busRead s addr).ir = s.ir := rfl
@[simp] theorem busRead_phase (addr : Word) : (busRead s addr).phase = s.phase := rfl
@[simp] theorem busRead_resetDelay (addr : Word) : (busRead s addr).resetDelay = s.resetDelay := rfl
@[simp] theorem busRead_aaa (addr : Word) : (busRead s addr).aaa = s.aaa := rfl
@[simp] theorem busRead_bbb (addr : Word) : (busRead s addr).bbb = s.bbb := rfl
@[simp] theorem busRead_cc (addr : Word) : (busRead s addr).cc = s.cc := rfl
@[simp] theorem busRead_foundAddress (addr : Word) : (busRead s addr).foundAddress = s.foundAddress := rfl
@[simp] theorem busRead_accessAddress (addr : Word) : (busRead s addr).accessAddress = s.accessAddress := rfl
@[simp] theorem busRead_indirectAddress (addr : Word) : (busRead s addr).indirectAddress = s.indirectAddress := rfl
@[simp] theorem busRead_oldPc (addr : Word) : (busRead s addr).oldPc = s.oldPc := rfl
@[simp] theorem busRead_offset (addr : Word) : (busRead s addr).offset = s.offset := rfl
@[simp] theorem busRead_compareOperand (addr : Word) : (busRead s addr).compareOperand = s.compareOperand := rfl
@[simp] theorem busRead_instructionCount (addr : Word) : (busRead s addr).instructionCount = s.instructionCount := rfl
@[simp] theorem busRead_isRunning (addr : Word) : (busRead s addr).isRunning = s.isRunning := rfl
@[simp] theorem busRead_cfg (addr : Word) : (busRead s addr).cfg = s.cfg := rfl
@[simp] theorem busRead_readBound (addr : Word) : (busRead s addr).readBound = s.readBound := rfl
@[simp] theorem busRead_writeBound (addr : Word) : (busRead s addr).writeBound = s.writeBound := rfl
@[simp] theorem busRead_mem (addr : Word) : (busRead s addr).mem = s.mem := rfl
@[simp] theorem busRead_answers (addr : Word) : (busRead s addr).answers = s.answers.tail := rfl
@[simp] theorem busRead_busLog (addr : Word) : (busRead s addr).busLog = .read addr (busAnswer s addr) :: s.busLog := rfl
@[simp] theorem busRead_events (addr : Word) : (busRead s addr).events = s.events := rfl

/-! busWrite -/

@[simp] theorem busWrite_a (addr : Word) (v : Byte) : (busWrite s addr v).a = s.a := rfl
@[simp] theorem busWrite_x (addr : Word) (v : Byte) : (busWrite s addr v).x = s.x := rfl
@[simp] theorem busWrite_y (addr : Word) (v : Byte) : (busWrite s addr v).y = s.y := rfl
@[simp] theorem busWrite_p (addr : Word) (v : Byte) : (busWrite s addr v).p = s.p := rfl
@[simp] theorem busWrite_pc (addr : Word) (v : Byte) : (busWrite s addr v).pc = s.pc := rfl
@[simp] theorem busWrite_sp (addr : Word) (v : Byte) : (busWrite s addr v).sp = s.sp := rfl
@[simp] theorem busWrite_ir (addr : Word) (v : Byte) : (busWrite s addr v).ir = s.ir := rfl
@[simp] theorem busWrite_phase (addr : Word) (v : Byte) : (busWrite s addr v).phase = s.phase := rfl
@[simp] theorem busWrite_resetDelay (addr : Word) (v : Byte) : (busWrite s addr v).resetDelay = s.resetDelay := rfl
@[simp] theorem busWrite_aaa (addr : Word) (v : Byte) : (busWrite s addr v).aaa = s.aaa := rfl
@[simp] theorem busWrite_bbb (addr : Word) (v : Byte) : (busWrite s addr v).bbb = s.bbb := rfl
@[simp] theorem busWrite_cc (addr : Word) (v : Byte) : (busWrite s addr v).cc = s.cc := rfl
@[simp] theorem busWrite_foundAddress (addr : Word) (v : Byte) : (busWrite s addr v).foundAddress = s.foundAddress := rfl
@[simp] theorem busWrite_accessAddress (addr : Word) (v : Byte) : (busWrite s addr v).accessAddress = s.accessAddress := rfl
@[simp] theorem busWrite_indirectAddress (addr : Word) (v : Byte) : (busWrite s addr v).indirectAddress = s.indirectAddress := rfl
@[simp] theorem busWrite_oldPc (addr : Word) (v : Byte) : (busWrite s addr v).oldPc = s.oldPc := rfl
@[simp] theorem busWrite_offset (addr : Word) (v : Byte) : (busWrite s addr v).offset = s.offset := rfl
@[simp] theorem busWrite_compareOperand (addr : Word) (v : Byte) : (busWrite s addr v).compareOperand = s.compareOperand := rfl
@[simp] theorem busWrite_instructionCount (addr : Word) (v : Byte) : (busWrite s addr v).instructionCount = s.instructionCount := rfl
@[simp] theorem busWrite_isRunning (addr : Word) (v : Byte) : (busWrite s addr v).isRunning = s.isRunning := rfl
@[simp] theorem busWrite_cfg (addr : Word) (v : Byte) : (busWrite s addr v).cfg = s.cfg := rfl
@[simp] theorem busWrite_readBound (addr : Word) (v : Byte) : (busWrite s addr v).readBound = s.readBound := rfl
@[simp] theorem busWrite_writeBound (addr : Word) (v : Byte) : (busWrite s addr v).writeBound = s.writeBound := rfl
@[simp] theorem busWrite_mem (addr : Word) (v : Byte) : (busWrite s addr v).mem = writeByte s.mem addr.toNat v := rfl
@[simp] theorem busWrite_answers (addr : Word) (v : Byte) : (busWrite s addr v).answers = s.answers := rfl
@[simp] theorem busWrite_busLog (addr : Word) (v : Byte) : (busWrite s addr v).busLog = .write addr v :: s.busLog := rfl
@[simp] theorem busWrite_events (addr : Word) (v : Byte) : (busWrite s addr v).events = s.events := rfl

/-! takePcByte -/

@[simp] theorem takePcByte_a : (takePcByte s).a = s.a := rfl
@[simp] theorem takePcByte_x : (takePcByte s).x = s.x := rfl
@[simp] theorem takePcByte_y : (takePcByte s).y = s.y := rfl
@[simp] theorem takePcByte_p : (takePcByte s).p = s.p := rfl
@[simp] theorem takePcByte_pc : (takePcByte s).pc = s.pc + 1 := rfl
@[simp] theorem takePcByte_sp : (takePcByte s).sp = s.sp := rfl
@[simp] theorem takePcByte_ir : (takePcByte s).ir = s.ir := rfl
@[simp] theorem takePcByte_phase : (takePcByte s).phase = s.phase := rfl
@[simp] theorem takePcByte_resetDelay : (takePcByte s).resetDelay = s.resetDelay := rfl
@[simp] theorem takePcByte_aaa : (takePcByte s).aaa = s.aaa := rfl
@[simp] theorem takePcByte_bbb : (takePcByte s).bbb = s.bbb := rfl
@[simp] theorem takePcByte_cc : (takePcByte s).cc = s.cc := rfl
@[simp] theorem takePcByte_foundAddress : (takePcByte s).foundAddress = s.foundAddress := rfl
@[simp] theorem takePcByte_accessAddress : (takePcByte s).accessAddress = s.accessAddress := rfl
@[simp] theorem takePcByte_indirectAddress : (takePcByte s).indirectAddress = s.indirectAddress := rfl
@[simp] theorem takePcByte_oldPc : (takePcByte s).oldPc = s.oldPc := rfl
@[simp] theorem takePcByte_offset : (takePcByte s).offset = s.offset := rfl
@[simp] theorem takePcByte_compareOperand : (takePcByte s).compareOperand = s.compareOperand := rfl
@[simp] theorem takePcByte_instructionCount : (takePcByte s).instructionCount = s.instructionCount := rfl
@[simp] theorem takePcByte_isRunning : (takePcByte s).isRunning = s.isRunning := rfl
@[simp] theorem takePcByte_cfg : (takePcByte s).cfg = s.cfg := rfl
@[simp] theorem takePcByte_readBound : (takePcByte s).readBound = s.readBound := rfl
@[simp] theorem takePcByte_writeBound : (takePcByte s).writeBound = s.writeBound := rfl
@[simp] theorem takePcByte_mem : (takePcByte s).mem = s.mem := rfl
@[simp] theorem takePcByte_answers : (takePcByte s).answers = s.answers.tail := rfl
@[simp] theorem takePcByte_busLog : (takePcByte s).busLog = .read s.pc (busAnswer s s.pc) :: s.busLog := rfl
@[simp] theorem takePcByte_events : (takePcByte s).events = s.events := rfl

/-! push -/

@[simp] theorem push_a (v : Byte) : (push s v).a = s.a := rfl
@[simp] theorem push_x (v : Byte) : (push s v).x = s.x := rfl
@[simp] theorem push_y (v : Byte) : (push s v).y = s.y := rfl
@[simp] theorem push_p (v : Byte) : (push s v).p = s.p := rfl
@[simp] theorem push_pc (v : Byte) : (push s v).pc = s.pc := rfl
@[simp] theorem push_sp (v : Byte) : (push s v).sp = s.sp - 1 := rfl
@[simp] theorem push_ir (v : Byte) : (push s v).ir = s.ir := rfl
@[simp] theorem push_phase (v : Byte) : (push s v).phase = s.phase := rfl
@[simp] theorem push_resetDelay (v : Byte) : (push s v).resetDelay = s.resetDelay := rfl
@[simp] theorem push_aaa (v : Byte) : (push s v).aaa = s.aaa := rfl
@[simp] theorem push_bbb (v : Byte) : (push s v).bbb = s.bbb := rfl
@[simp] theorem push_cc (v : Byte) : (push s v).cc = s.cc := rfl
@[simp] theorem push_foundAddress (v : Byte) : (push s v).foundAddress = s.foundAddress := rfl
@[simp] theorem push_accessAddress (v : Byte) : (push s v).accessAddress = s.accessAddress := rfl
@[simp] theorem push_indirectAddress (v : Byte) : (push s v).indirectAddress = s.indirectAddress := rfl
@[simp] theorem push_oldPc (v : Byte) : (push s v).oldPc = s.oldPc := rfl
@[simp] theorem push_offset (v : Byte) : (push s v).offset = s.offset := rfl
@[simp] theorem push_compareOperand (v : Byte) : (push s v).compareOperand = s.compareOperand := rfl
@[simp] theorem push_instructionCount (v : Byte) : (push s v).instructionCount = s.instructionCount := rfl
@[simp] theorem push_isRunning (v : Byte) : (push s v).isRunning = s.isRunning := rfl
@[simp] theorem push_cfg (v : Byte) : (push s v).cfg = s.cfg := rfl
@[simp] theorem push_readBound (v : Byte) : (push s v).readBound = s.readBound := rfl
@[simp] theorem push_writeBound (v : Byte) : (push s v).writeBound = s.writeBound := rfl
@[simp] theorem push_mem (v : Byte) : (push s v).mem = writeByte s.mem (stackAddr s.sp).toNat v := rfl
@[simp] theorem push_answers (v : Byte) : (push s v).answers = s.answers := rfl
@[simp] theorem push_busLog (v : Byte) : (push s v).busLog = .write (stackAddr s.sp) v :: s.busLog := rfl
@[simp] theorem push_events (v : Byte) : (push s v).events = s.events := rfl

/-! pulled -/

@[simp] theorem pulled_a : (pulled s).a = s.a := rfl
@[simp] theorem pulled_x : (pulled s).x = s.x := rfl
@[simp] theorem pulled_y : (pulled s).y = s.y := rfl
@[simp] theorem pulled_p : (pulled s).p = s.p := rfl
@[simp] theorem pulled_pc : (pulled s).pc = s.pc := rfl
@[simp] theorem pulled_sp : (pulled s).sp = s.sp + 1 := rfl
@[simp] theorem pulled_ir : (pulled s).ir = s.ir := rfl
@[simp] theorem pulled_phase : (pulled s).phase = s.phase := rfl
@[simp] theorem pulled_resetDelay : (pulled s).resetDelay = s.resetDelay := rfl
@[simp] theorem pulled_aaa : (pulled s).aaa = s.aaa := rfl
@[simp] theorem pulled_bbb : (pulled s).bbb = s.bbb := rfl
@[simp] theorem pulled_cc : (pulled s).cc = s.cc := rfl
@[simp] theorem pulled_foundAddress : (pulled s).foundAddress = s.foundAddress := rfl
@[simp] theorem pulled_accessAddress : (pulled s).accessAddress = s.accessAddress := rfl
@[simp] theorem pulled_indirectAddress : (pulled s).indirectAddress = s.indirectAddress := rfl
@[simp] theorem pulled_oldPc : (pulled s).oldPc = s.oldPc := rfl
@[simp] theorem pulled_offset : (pulled s).offset = s.offset := rfl
@[simp] theorem pulled_compareOperand : (pulled s).compareOperand = s.compareOperand := rfl
@[simp] theorem pulled_instructionCount : (pulled s).instructionCount = s.instructionCount := rfl
@[simp] theorem pulled_isRunning : (pulled s).isRunning = s.isRunning := rfl
@[simp] theorem pulled_cfg : (pulled s).cfg = s.cfg := rfl
@[simp] theorem pulled_readBound : (pulled s).readBound = s.readBound := rfl
@[simp] theorem pulled_writeBound : (pulled s).writeBound = s.writeBound := rfl
@[simp] theorem pulled_mem : (pulled s).mem = s.mem := rfl
@[simp] theorem pulled_answers : (pulled s).answers = s.answers.tail := rfl
@[simp] theorem pulled_busLog : (pulled s).busLog = .read (stackAddr (s.sp + 1)) (busAnswer s (stackAddr (s.sp + 1))) :: s.busLog := rfl
@[simp] theorem pulled_events : (pulled s).events = s.events := rfl

/-! goto -/

@[simp] theorem goto_a (c : Phase) : (goto c s).a = s.a := rfl
@[simp] theorem goto_x (c : Phase) : (goto c s).x = s.x := rfl
@[simp] theorem goto_y (c : Phase) : (goto c s).y = s.y := rfl
@[simp] theorem goto_p (c : Phase) : (goto c s).p = s.p := rfl
@[simp] theorem goto_pc (c : Phase) : (goto c s).pc = s.pc := rfl
@[simp] theorem goto_sp (c : Phase) : (goto c s).sp = s.sp := rfl
@[simp] theorem goto_ir (c : Phase) : (goto c s).ir = s.ir := rfl
@[simp] theorem goto_phase (c : Phase) : (goto c s).phase = c := rfl
@[simp] theorem goto_resetDelay (c : Phase) : (goto c s).resetDelay = s.resetDelay := rfl
@[simp] theorem goto_aaa (c : Phase) : (goto c s).aaa = s.aaa := rfl
@[simp] theorem goto_bbb (c : Phase) : (goto c s).bbb = s.bbb := rfl
@[simp] theorem goto_cc (c : Phase) : (goto c s).cc = s.cc := rfl
@[simp] theorem goto_foundAddress (c : Phase) : (goto c s).foundAddress = s.foundAddress := rfl
@[simp] theorem goto_accessAddress (c : Phase) : (goto c s).accessAddress = s.accessAddress := rfl
@[simp] theorem goto_indirectAddress (c : Phase) : (goto c s).indirectAddress = s.indirectAddress := rfl
@[simp] theorem goto_oldPc (c : Phase) : (goto c s).oldPc = s.oldPc := rfl
@[simp] theorem goto_offset (c : Phase) : (goto c s).offset = s.offset := rfl
@[simp] theorem goto_compareOperand (c : Phase) : (goto c s).compareOperand = s.compareOperand := rfl
@[simp] theorem goto_instructionCount (c : Phase) : (goto c s).instructionCount = s.instructionCount := rfl
@[simp] theorem goto_isRunning (c : Phase) : (goto c s).isRunning = s.isRunning := rfl
@[simp] theorem goto_cfg (c : Phase) : (goto c s).cfg = s.cfg := rfl
@[simp] theorem goto_readBound (c : Phase) : (goto c s).readBound = s.readBound := rfl
@[simp] theorem goto_writeBound (c : Phase) : (goto c s).writeBound = s.writeBound := rfl
@[simp] theorem goto_mem (c : Phase) : (goto c s).mem = s.mem := rfl
@[simp] theorem goto_answers (c : Phase) : (goto c s).answers = s.answers := rfl
@[simp] theorem goto_busLog (c : Phase) : (goto c s).busLog = s.busLog := rfl
@[simp] theorem goto_events (c : Phase) : (goto c s).events = s.events := rfl

/-! done -/

@[simp] theorem done_a : (done s).a = s.a := rfl
@[simp] theorem done_x : (done s).x = s.x := rfl
@[simp] theorem done_y : (done s).y = s.y := rfl
@[simp] theorem done_p : (done s).p = s.p := rfl
@[simp] theorem done_pc : (done s).pc = s.pc := rfl
@[simp] theorem done_sp : (done s).sp = s.sp := rfl
@[simp] theorem done_ir : (done s).ir = s.ir := rfl
@[simp] theorem done_phase : (done s).phase = .idle := rfl
@[simp] theorem done_resetDelay : (done s).resetDelay = s.resetDelay := rfl
@[simp] theorem done_aaa : (done s).aaa = s.aaa := rfl
@[simp] theorem done_bbb : (done s).bbb = s.bbb := rfl
@[simp] theorem done_cc : (done s).cc = s.cc := rfl
@[simp] theorem done_foundAddress : (done s).foundAddress = s.foundAddress := rfl
@[simp] theorem done_accessAddress : (done s).accessAddress = s.accessAddress := rfl
@[simp] theorem done_indirectAddress : (done s).indirectAddress = s.indirectAddress := rfl
@[simp] theorem done_oldPc : (done s).oldPc = s.oldPc := rfl
@[simp] theorem done_offset : (done s).offset = s.offset := rfl
@[simp] theorem done_compareOperand : (done s).compareOperand = s.compareOperand := rfl
@[simp] theorem done_instructionCount : (done s).instructionCount = s.instructionCount := rfl
@[simp] theorem done_isRunning : (done s).isRunning = s.isRunning := rfl
@[simp] theorem done_cfg : (done s).cfg = s.cfg := rfl
@[simp] theorem done_readBound : (done s).readBound = s.readBound := rfl
@[simp] theorem done_writeBound : (done s).writeBound = s.writeBound := rfl
@[simp] theorem done_mem : (done s).mem = s.mem := rfl
@[simp] theorem done_answers : (done s).answers = s.answers := rfl
@[simp] theorem done_busLog : (done s).busLog = s.busLog := rfl
@[simp] theorem done_events : (done s).events = s.events := rfl

/-! halt -/

@[simp] theorem halt_a : (halt s).a = s.a := rfl
@[simp] theorem halt_x : (halt s).x = s.x := rfl
@[simp] theorem halt_y : (halt s).y = s.y := rfl
@[simp] theorem halt_p : (halt s).p = s.p := rfl
@[simp] theorem halt_pc : (halt s).pc = s.pc := rfl
@[simp] theorem halt_sp : (halt s).sp = s.sp := rfl
@[simp] theorem halt_ir : (halt s).ir = s.ir := rfl
@[simp] theorem halt_phase : (halt s).phase = .idle := rfl
@[simp] theorem halt_resetDelay : (halt s).resetDelay = s.resetDelay := rfl
@[simp] theorem halt_aaa : (halt s).aaa = s.aaa := rfl
@[simp] theorem halt_bbb : (halt s).bbb = s.bbb := rfl
@[simp] theorem halt_cc : (halt s).cc = s.cc := rfl
@[simp] theorem halt_foundAddress : (halt s).foundAddress = s.foundAddress := rfl
@[simp] theorem halt_accessAddress : (halt s).accessAddress = s.accessAddress := rfl
@[simp] theorem halt_indirectAddress : (halt s).indirectAddress = s.indirectAddress := rfl
@[simp] theorem halt_oldPc : (halt s).oldPc = s.oldPc := rfl
@[simp] theorem halt_offset : (halt s).offset = s.offset := rfl
@[simp] theorem halt_compareOperand : (halt s).compareOperand = s.compareOperand := rfl
@[simp] theorem halt_instructionCount : (halt s).instructionCount = s.instructionCount := rfl
@[simp] theorem halt_isRunning : (halt s).isRunning = false := rfl
@[simp] theorem halt_cfg : (halt s).cfg = s.cfg := rfl
@[simp] theorem halt_readBound : (halt s).readBound = s.readBound := rfl
@[simp] theorem halt_writeBound : (halt s).writeBound = s.writeBound := rfl
@[simp] theorem halt_mem : (halt s).mem = s.mem := rfl
@[simp] theorem halt_answers : (halt s).answers = s.answers := rfl
@[simp] theorem halt_busLog : (halt s).busLog = s.busLog := rfl
@[simp] theorem halt_events : (halt s).events = s.events := rfl

/-! emit -/

@[simp] theorem emit_a (e : Event) : (emit e s).a = s.a := rfl
@[simp] theorem emit_x (e : Event) : (emit e s).x = s.x := rfl
@[simp] theorem emit_y (e : Event) : (emit e s).y = s.y := rfl
@[simp] theorem emit_p (e : Event) : (emit e s).p = s.p := rfl
@[simp] theorem emit_pc (e : Event) : (emit e s).pc = s.pc := rfl
@[simp] theorem emit_sp (e : Event) : (emit e s).sp = s.sp := rfl
@[simp] theorem emit_ir (e : Event) : (emit e s).ir = s.ir := rfl
@[simp] theorem emit_phase (e : Event) : (emit e s).phase = s.phase := rfl
@[simp] theorem emit_resetDelay (e : Event) : (emit e s).resetDelay = s.resetDelay := rfl
@[simp] theorem emit_aaa (e : Event) : (emit e s).aaa = s.aaa := rfl
@[simp] theorem emit_bbb (e : Event) : (emit e s).bbb = s.bbb := rfl
@[simp] theorem emit_cc (e : Event) : (emit e s).cc = s.cc := rfl
@[simp] theorem emit_foundAddress (e : Event) : (emit e s).foundAddress = s.foundAddress := rfl
@[simp] theorem emit_accessAddress (e : Event) : (emit e s).accessAddress = s.accessAddress := rfl
@[simp] theorem emit_indirectAddress (e : Event) : (emit e s).indirectAddress = s.indirectAddress := rfl
@[simp] theorem emit_oldPc (e : Event) : (emit e s).oldPc = s.oldPc := rfl
@[simp] theorem emit_offset (e : Event) : (emit e s).offset = s.offset := rfl
@[simp] theorem emit_compareOperand (e : Event) : (emit e s).compareOperand = s.compareOperand := rfl
@[simp] theorem emit_instructionCount (e : Event) : (emit e s).instructionCount = s.instructionCount := rfl
@[simp] theorem emit_isRunning (e : Event) : (emit e s).isRunning = s.isRunning := rfl
@[simp] theorem emit_cfg (e : Event) : (emit e s).cfg = s.cfg := rfl
@[simp] theorem emit_readBound (e : Event) : (emit e s).readBound = s.readBound := rfl
@[simp] theorem emit_writeBound (e : Event) : (emit e s).writeBound = s.writeBound := rfl
@[simp] theorem emit_mem (e : Event) : (emit e s).mem = s.mem := rfl
@[simp] theorem emit_answers (e : Event) : (emit e s).answers = s.answers := rfl
@[simp] theorem emit_busLog (e : Event) : (emit e s).busLog = s.busLog := rfl
@[simp] theorem emit_events (e : Event) : (emit e s).events = e :: s.events := rfl

/-! trapIllegal -/

@[simp] theorem trapIllegal_a : (trapIllegal s).a = s.a := rfl
@[simp] theorem trapIllegal_x : (trapIllegal s).x = s.x := rfl
@[simp] theorem trapIllegal_y : (trapIllegal s).y = s.y := rfl
@[simp] theorem trapIllegal_p : (trapIllegal s).p = s.p := rfl
@[simp] theorem trapIllegal_pc : (trapIllegal s).pc = s.pc := rfl
@[simp] theorem trapIllegal_sp : (trapIllegal s).sp = s.sp := rfl
@[simp] theorem trapIllegal_ir : (trapIllegal s).ir = s.ir := rfl
@[simp] theorem trapIllegal_phase : (trapIllegal s).phase = .idle := rfl
@[simp] theorem trapIllegal_resetDelay : (trapIllegal s).resetDelay = s.resetDelay := rfl
@[simp] theorem trapIllegal_aaa : (trapIllegal s).aaa = s.aaa := rfl
@[simp] theorem trapIllegal_bbb : (trapIllegal s).bbb = s.bbb := rfl
@[simp] theorem trapIllegal_cc : (trapIllegal s).cc = s.cc := rfl
@[simp] theorem trapIllegal_foundAddress : (trapIllegal s).foundAddress = s.foundAddress := rfl
@[simp] theorem trapIllegal_accessAddress : (trapIllegal s).accessAddress = s.accessAddress := rfl
@[simp] theorem trapIllegal_indirectAddress : (trapIllegal s).indirectAddress = s.indirectAddress := rfl
@[simp] theorem trapIllegal_oldPc : (trapIllegal s).oldPc = s.oldPc := rfl
@[simp] theorem trapIllegal_offset : (trapIllegal s).offset = s.offset := rfl
@[simp] theorem trapIllegal_compareOperand : (trapIllegal s).compareOperand = s.compareOperand := rfl
@[simp] theorem trapIllegal_instructionCount : (trapIllegal s).instructionCount = s.instructionCount := rfl
@[simp] theorem trapIllegal_isRunning : (trapIllegal s).isRunning = false := rfl
@[simp] theorem trapIllegal_cfg : (trapIllegal s).cfg = s.cfg := rfl
@[simp] theorem trapIllegal_readBound : (trapIllegal s).readBound = s.readBound := rfl
@[simp] theorem trapIllegal_writeBound : (trapIllegal s).writeBound = s.writeBound := rfl
@[simp] theorem trapIllegal_mem : (trapIllegal s).mem = s.mem := rfl
@[simp] theorem trapIllegal_answers : (trapIllegal s).answers = s.answers := rfl
@[simp] theorem trapIllegal_busLog : (trapIllegal s).busLog = s.busLog := rfl
@[simp] theorem trapIllegal_events : (trapIllegal s).events = .illegalOpcode s.ir (s.pc - 1) :: s.events := rfl

/-! fetchStep -/

@[simp] theorem fetchStep_a : (fetchStep s).a = s.a := rfl
@[simp] theorem fetchStep_x : (fetchStep s).x = s.x := rfl
@[simp] theorem fetchStep_y : (fetchStep s).y = s.y := rfl
@[simp] theorem fetchStep_p : (fetchStep s).p = s.p := rfl
@[simp] theorem fetchStep_pc : (fetchStep s).pc = s.pc + 1 := rfl
@[simp] theorem fetchStep_sp : (fetchStep s).sp = s.sp := rfl
@[simp] theorem fetchStep_ir : (fetchStep s).ir = pcByte s := rfl
@[simp] theorem fetchStep_phase : (fetchStep s).phase = .c1 := rfl
@[simp] theorem fetchStep_resetDelay : (fetchStep s).resetDelay = s.resetDelay := rfl
@[simp] theorem fetchStep_aaa : (fetchStep s).aaa = opcodeAaa (pcByte s) := rfl
@[simp] theorem fetchStep_bbb : (fetchStep s).bbb = opcodeBbb (pcByte s) := rfl
@[simp] theorem fetchStep_cc : (fetchStep s).cc = opcodeCc (pcByte s) := rfl
@[simp] theorem fetchStep_foundAddress : (fetchStep s).foundAddress = false := rfl
@[simp] theorem fetchStep_accessAddress : (fetchStep s).accessAddress = s.accessAddress := rfl
@[simp] theorem fetchStep_indirectAddress : (fetchStep s).indirectAddress = s.indirectAddress := rfl
@[simp] theorem fetchStep_oldPc : (fetchStep s).oldPc = s.oldPc := rfl
@[simp] theorem fetchStep_offset : (fetchStep s).offset = s.offset := rfl
@[simp] theorem fetchStep_compareOperand : (fetchStep s).compareOperand = s.compareOperand := rfl
@[simp] theorem fetchStep_instructionCount : (fetchStep s).instructionCount = (s.instructionCount + 1) % 2 ^ s.cfg.icountWidth := rfl
@[simp] theorem fetchStep_isRunning : (fetchStep s).isRunning = s.isRunning := rfl
@[simp] theorem fetchStep_cfg : (fetchStep s).cfg = s.cfg := rfl
@[simp] theorem fetchStep_readBound : (fetchStep s).readBound = s.readBound := rfl
@[simp] theorem fetchStep_writeBound : (fetchStep s).writeBound = s.writeBound := rfl
@[simp] theorem fetchStep_mem : (fetchStep s).mem = s.mem := rfl
@[simp] theorem fetchStep_answers : (fetchStep s).answers = s.answers.tail := rfl
@[simp] theorem fetchStep_busLog : (fetchStep s).busLog = .read s.pc (busAnswer s s.pc) :: s.busLog := rfl
@[simp] theorem fetchStep_events : (fetchStep s).events = s.events := rfl

/-! addressReady -/

@[simp] theorem addressReady_a (ea : Word) : (addressReady ea s).a = s.a := rfl
@[simp] theorem addressReady_x (ea : Word) : (addressReady ea s).x = s.x := rfl
@[simp] theorem addressReady_y (ea : Word) : (addressReady ea s).y = s.y := rfl
@[simp] theorem addressReady_p (ea : Word) : (addressReady ea s).p = s.p := rfl
@[simp] theorem addressReady_pc (ea : Word) : (addressReady ea s).pc = s.pc := rfl
@[simp] theorem addressReady_sp (ea : Word) : (addressReady ea s).sp = s.sp := rfl
@[simp] theorem addressReady_ir (ea : Word) : (addressReady ea s).ir = s.ir := rfl
@[simp] theorem addressReady_phase (ea : Word) : (addressReady ea s).phase = .operate := rfl
@[simp] theorem addressReady_resetDelay (ea : Word) : (addressReady ea s).resetDelay = s.resetDelay := rfl
@[simp] theorem addressReady_aaa (ea : Word) : (addressReady ea s).aaa = s.aaa := rfl
@[simp] theorem addressReady_bbb (ea : Word) : (addressReady ea s).bbb = s.bbb := rfl
@[simp] theorem addressReady_cc (ea : Word) : (addressReady ea s).cc = s.cc := rfl
@[simp] theorem addressReady_foundAddress (ea : Word) : (addressReady ea s).foundAddress = true := rfl
@[simp] theorem addressReady_accessAddress (ea : Word) : (addressReady ea s).accessAddress = ea := rfl
@[simp] theorem addressReady_indirectAddress (ea : Word) : (addressReady ea s).indirectAddress = s.indirectAddress := rfl
@[simp] theorem addressReady_oldPc (ea : Word) : (addressReady ea s).oldPc = s.oldPc := rfl
@[simp] theorem addressReady_offset (ea : Word) : (addressReady ea s).offset = s.offset := rfl
@[simp] theorem addressReady_compareOperand (ea : Word) : (addressReady ea s).compareOperand = s.compareOperand := rfl
@[simp] theorem addressReady_instructionCount (ea : Word) : (addressReady ea s).instructionCount = s.instructionCount := rfl
@[simp] theorem addressReady_isRunning (ea : Word) : (addressReady ea s).isRunning = s.isRunning := rfl
@[simp] theorem addressReady_cfg (ea : Word) : (addressReady ea s).cfg = s.cfg := rfl
@[simp] theorem addressReady_readBound (ea : Word) : (addressReady ea s).readBound = s.readBound := rfl
@[simp] theorem addressReady_writeBound (ea : Word) : (addressReady ea s).writeBound = s.writeBound := rfl
@[simp] theorem addressReady_mem (ea : Word) : (addressReady ea s).mem = s.mem := rfl
@[simp] theorem addressReady_answers (ea : Word) : (addressReady ea s).answers = s.answers := rfl
@[simp] theorem addressReady_busLog (ea : Word) : (addressReady ea s).busLog = s.busLog := rfl
@[simp] theorem addressReady_events (ea : Word) : (addressReady ea s).events = s.events := rfl

/-! takeLowOperand -/

@[simp] theorem takeLowOperand_a : (takeLowOperand s).a = s.a := rfl
@[simp] theorem takeLowOperand_x : (takeLowOperand s).x = s.x := rfl
@[simp] theorem takeLowOperand_y : (takeLowOperand s).y = s.y := rfl
@[simp] theorem takeLowOperand_p : (takeLowOperand s).p = s.p := rfl
@[simp] theorem takeLowOperand_pc : (takeLowOperand s).pc = s.pc + 1 := rfl
@[simp] theorem takeLowOperand_sp : (takeLowOperand s).sp = s.sp := rfl
@[simp] theorem takeLowOperand_ir : (takeLowOperand s).ir = s.ir := rfl
@[simp] theorem takeLowOperand_phase : (takeLowOperand s).phase = .c2 := rfl
@[simp] theorem takeLowOperand_resetDelay : (takeLowOperand s).resetDelay = s.resetDelay := rfl
@[simp] theorem takeLowOperand_aaa : (takeLowOperand s).aaa = s.aaa := rfl
@[simp] theorem takeLowOperand_bbb : (takeLowOperand s).bbb = s.bbb := rfl
@[simp] theorem takeLowOperand_cc : (takeLowOperand s).cc = s.cc := rfl
@[simp] theorem takeLowOperand_foundAddress : (takeLowOperand s).foundAddress = s.foundAddress := rfl
@[simp] theorem takeLowOperand_accessAddress : (takeLowOperand s).accessAddress = setLow s.accessAddress (pcByte s) := rfl
@[simp] theorem takeLowOperand_indirectAddress : (takeLowOperand s).indirectAddress = s.indirectAddress := rfl
@[simp] theorem takeLowOperand_oldPc : (takeLowOperand s).oldPc = s.oldPc := rfl
@[simp] theorem takeLowOperand_offset : (takeLowOperand s).offset = s.offset := rfl
@[simp] theorem takeLowOperand_compareOperand : (takeLowOperand s).compareOperand = s.compareOperand := rfl
@[simp] theorem takeLowOperand_instructionCount : (takeLowOperand s).instructionCount = s.instructionCount := rfl
@[simp] theorem takeLowOperand_isRunning : (takeLowOperand s).isRunning = s.isRunning := rfl
@[simp] theorem takeLowOperand_cfg : (takeLowOperand s).cfg = s.cfg := rfl
@[simp] theorem takeLowOperand_readBound : (takeLowOperand s).readBound = s.readBound := rfl
@[simp] theorem takeLowOperand_writeBound : (takeLowOperand s).writeBound = s.writeBound := rfl
@[simp] theorem takeLowOperand_mem : (takeLowOperand s).mem = s.mem := rfl
@[simp] theorem takeLowOperand_answers : (takeLowOperand s).answers = s.answers.tail := rfl
@[simp] theorem takeLowOperand_busLog : (takeLowOperand s).busLog = .read s.pc (busAnswer s s.pc) :: s.busLog := rfl
@[simp] theorem takeLowOperand_events : (takeLowOperand s).events = s.events := rfl

/-! takeHighOperand -/

@[simp] theorem takeHighOperand_a : (takeHighOperand s).a = s.a := rfl
@[simp] theorem takeHighOperand_x : (takeHighOperand s).x = s.x := rfl
@[simp] theorem takeHighOperand_y : (takeHighOperand s).y = s.y := rfl
@[simp] theorem takeHighOperand_p : (takeHighOperand s).p = s.p := rfl
@[simp] theorem takeHighOperand_pc : (takeHighOperand s).pc = s.pc + 1 := rfl
@[simp] theorem takeHighOperand_sp : (takeHighOperand s).sp = s.sp := rfl
@[simp] theorem takeHighOperand_ir : (takeHighOperand s).ir = s.ir := rfl
@[simp] theorem takeHighOperand_phase : (takeHighOperand s).phase = s.phase := rfl
@[simp] theorem takeHighOperand_resetDelay : (takeHighOperand s).resetDelay = s.resetDelay := rfl
@[simp] theorem takeHighOperand_aaa : (takeHighOperand s).aaa = s.aaa := rfl
@[simp] theorem takeHighOperand_bbb : (takeHighOperand s).bbb = s.bbb := rfl
@[simp] theorem takeHighOperand_cc : (takeHighOperand s).cc = s.cc := rfl
@[simp] theorem takeHighOperand_foundAddress : (takeHighOperand s).foundAddress = s.foundAddress := rfl
@[simp] theorem takeHighOperand_accessAddress : (takeHighOperand s).accessAddress = setHigh s.accessAddress (pcByte s) := rfl
@[simp] theorem takeHighOperand_indirectAddress : (takeHighOperand s).indirectAddress = s.indirectAddress := rfl
@[simp] theorem takeHighOperand_oldPc : (takeHighOperand s).oldPc = s.oldPc := rfl
@[simp] theorem takeHighOperand_offset : (takeHighOperand s).offset = s.offset := rfl
@[simp] theorem takeHighOperand_compareOperand : (takeHighOperand s).compareOperand = s.compareOperand := rfl
@[simp] theorem takeHighOperand_instructionCount : (takeHighOperand s).instructionCount = s.instructionCount := rfl
@[simp] theorem takeHighOperand_isRunning : (takeHighOperand s).isRunning = s.isRunning := rfl
@[simp] theorem takeHighOperand_cfg : (takeHighOperand s).cfg = s.cfg := rfl
@[simp] theorem takeHighOperand_readBound : (takeHighOperand s).readBound = s.readBound := rfl
@[simp] theorem takeHighOperand_writeBound : (takeHighOperand s).writeBound = s.writeBound := rfl
@[simp] theorem takeHighOperand_mem : (takeHighOperand s).mem = s.mem := rfl
@[simp] theorem takeHighOperand_answers : (takeHighOperand s).answers = s.answers.tail := rfl
@[simp] theorem takeHighOperand_busLog : (takeHighOperand s).busLog = .read s.pc (busAnswer s s.pc) :: s.busLog := rfl
@[simp] theorem takeHighOperand_events : (takeHighOperand s).events = s.events := rfl

/-! latchOperand -/

@[simp] theorem latchOperand_a : (latchOperand s).a = s.a := rfl
@[simp] theorem latchOperand_x : (latchOperand s).x = s.x := rfl
@[simp] theorem latchOperand_y : (latchOperand s).y = s.y := rfl
@[simp] theorem latchOperand_p : (latchOperand s).p = s.p := rfl
@[simp] theorem latchOperand_pc : (latchOperand s).pc = s.pc := rfl
@[simp] theorem latchOperand_sp : (latchOperand s).sp = s.sp := rfl
@[simp] theorem latchOperand_ir : (latchOperand s).ir = s.ir := rfl
@[simp] theorem latchOperand_phase : (latchOperand s).phase = s.phase := rfl
@[simp] theorem latchOperand_resetDelay : (latchOperand s).resetDelay = s.resetDelay := rfl
@[simp] theorem latchOperand_aaa : (latchOperand s).aaa = s.aaa := rfl
@[simp] theorem latchOperand_bbb : (latchOperand s).bbb = s.bbb := rfl
@[simp] theorem latchOperand_cc : (latchOperand s).cc = s.cc := rfl
@[simp] theorem latchOperand_foundAddress : (latchOperand s).foundAddress = s.foundAddress := rfl
@[simp] theorem latchOperand_accessAddress : (latchOperand s).accessAddress = s.accessAddress := rfl
@[simp] theorem latchOperand_indirectAddress : (latchOperand s).indirectAddress = s.indirectAddress := rfl
@[simp] theorem latchOperand_oldPc : (latchOperand s).oldPc = s.oldPc := rfl
@[simp] theorem latchOperand_offset : (latchOperand s).offset = s.offset := rfl
@[simp] theorem latchOperand_compareOperand : (latchOperand s).compareOperand = operand s := rfl
@[simp] theorem latchOperand_instructionCount : (latchOperand s).instructionCount = s.instructionCount := rfl
@[simp] theorem latchOperand_isRunning : (latchOperand s).isRunning = s.isRunning := rfl
@[simp] theorem latchOperand_cfg : (latchOperand s).cfg = s.cfg := rfl
@[simp] theorem latchOperand_readBound : (latchOperand s).readBound = s.readBound := rfl
@[simp] theorem latchOperand_writeBound : (latchOperand s).writeBound = s.writeBound := rfl
@[simp] theorem latchOperand_mem : (latchOperand s).mem = s.mem := rfl
@[simp] theorem latchOperand_answers : (latchOperand s).answers = s.answers.tail := rfl
@[simp] theorem latchOperand_busLog : (latchOperand s).busLog = .read s.accessAddress (busAnswer s s.accessAddress) :: s.busLog := rfl
@[simp] theorem latchOperand_events : (latchOperand s).events = s.events := rfl

/-! fetchOffset -/

@[simp] theorem fetchOffset_a : (fetchOffset s).a = s.a := rfl
@[simp] theorem fetchOffset_x : (fetchOffset s).x = s.x := rfl
@[simp] theorem fetchOffset_y : (fetchOffset s).y = s.y := rfl
@[simp] theorem fetchOffset_p : (fetchOffset s).p = s.p := rfl
@[simp] theorem fetchOffset_pc : (fetchOffset s).pc = s.pc + 1 := rfl
@[simp] theorem fetchOffset_sp : (fetchOffset s).sp = s.sp := rfl
@[simp] theorem fetchOffset_ir : (fetchOffset s).ir = s.ir := rfl
@[simp] theorem fetchOffset_phase : (fetchOffset s).phase = s.phase := rfl
@[simp] theorem fetchOffset_resetDelay : (fetchOffset s).resetDelay = s.resetDelay := rfl
@[simp] theorem fetchOffset_aaa : (fetchOffset s).aaa = s.aaa := rfl
@[simp] theorem fetchOffset_bbb : (fetchOffset s).bbb = s.bbb := rfl
@[simp] theorem fetchOffset_cc : (fetchOffset s).cc = s.cc := rfl
@[simp] theorem fetchOffset_foundAddress : (fetchOffset s).foundAddress = s.foundAddress := rfl
@[simp] theorem fetchOffset_accessAddress : (fetchOffset s).accessAddress = s.accessAddress := rfl
@[simp] theorem fetchOffset_indirectAddress : (fetchOffset s).indirectAddress = s.indirectAddress := rfl
@[simp] theorem fetchOffset_oldPc : (fetchOffset s).oldPc = s.pc + 1 := rfl
@[simp] theorem fetchOffset_offset : (fetchOffset s).offset = pcByte s := rfl
@[simp] theorem fetchOffset_compareOperand : (fetchOffset s).compareOperand = s.compareOperand := rfl
@[simp] theorem fetchOffset_instructionCount : (fetchOffset s).instructionCount = s.instructionCount := rfl
@[simp] theorem fetchOffset_isRunning : (fetchOffset s).isRunning = s.isRunning := rfl
@[simp] theorem fetchOffset_cfg : (fetchOffset s).cfg = s.cfg := rfl
@[simp] theorem fetchOffset_readBound : (fetchOffset s).readBound = s.readBound := rfl
@[simp] theorem fetchOffset_writeBound : (fetchOffset s).writeBound = s.writeBound := rfl
@[simp] theorem fetchOffset_mem : (fetchOffset s).mem = s.mem := rfl
@[simp] theorem fetchOffset_answers : (fetchOffset s).answers = s.answers.tail := rfl
@[simp] theorem fetchOffset_busLog : (fetchOffset s).busLog = .read s.pc (busAnswer s s.pc) :: s.busLog := rfl
@[simp] theorem fetchOffset_events : (fetchOffset s).events = s.events := rfl

/-! writeFlag -/

@[simp] theorem writeFlag_a (f : Flag) (v : Bool) : (writeFlag f v s).a = s.a := rfl
@[simp] theorem writeFlag_x (f : Flag) (v : Bool) : (writeFlag f v s).x = s.x := rfl
@[simp] theorem writeFlag_y (f : Flag) (v : Bool) : (writeFlag f v s).y = s.y := rfl
@[simp] theorem writeFlag_p (f : Flag) (v : Bool) : (writeFlag f v s).p = setFlag f v s.p := rfl
@[simp] theorem writeFlag_pc (f : Flag) (v : Bool) : (writeFlag f v s).pc = s.pc := rfl
@[simp] theorem writeFlag_sp (f : Flag) (v : Bool) : (writeFlag f v s).sp = s.sp := rfl
@[simp] theorem writeFlag_ir (f : Flag) (v : Bool) : (writeFlag f v s).ir = s.ir := rfl
@[simp] theorem writeFlag_phase (f : Flag) (v : Bool) : (writeFlag f v s).phase = s.phase := rfl
@[simp] theorem writeFlag_resetDelay (f : Flag) (v : Bool) : (writeFlag f v s).resetDelay = s.resetDelay := rfl
@[simp] theorem writeFlag_aaa (f : Flag) (v : Bool) : (writeFlag f v s).aaa = s.aaa := rfl
@[simp] theorem writeFlag_bbb (f : Flag) (v : Bool) : (writeFlag f v s).bbb = s.bbb := rfl
@[simp] theorem writeFlag_cc (f : Flag) (v : Bool) : (writeFlag f v s).cc = s.cc := rfl
@[simp] theorem writeFlag_foundAddress (f : Flag) (v : Bool) : (writeFlag f v s).foundAddress = s.foundAddress := rfl
@[simp] theorem writeFlag_accessAddress (f : Flag) (v : Bool) : (writeFlag f v s).accessAddress = s.accessAddress := rfl
@[simp] theorem writeFlag_indirectAddress (f : Flag) (v : Bool) : (writeFlag f v s).indirectAddress = s.indirectAddress := rfl
@[simp] theorem writeFlag_oldPc (f : Flag) (v : Bool) : (writeFlag f v s).oldPc = s.oldPc := rfl
@[simp] theorem writeFlag_offset (f : Flag) (v : Bool) : (writeFlag f v s).offset = s.offset := rfl
@[simp] theorem writeFlag_compareOperand (f : Flag) (v : Bool) : (writeFlag f v s).compareOperand = s.compareOperand := rfl
@[simp] theorem writeFlag_instructionCount (f : Flag) (v : Bool) : (writeFlag f v s).instructionCount = s.instructionCount := rfl
@[simp] theorem writeFlag_isRunning (f : Flag) (v : Bool) : (writeFlag f v s).isRunning = s.isRunning := rfl
@[simp] theorem writeFlag_cfg (f : Flag) (v : Bool) : (writeFlag f v s).cfg = s.cfg := rfl
@[simp] theorem writeFlag_readBound (f : Flag) (v : Bool) : (writeFlag f v s).readBound = s.readBound := rfl
@[simp] theorem writeFlag_writeBound (f : Flag) (v : Bool) : (writeFlag f v s).writeBound = s.writeBound := rfl
@[simp] theorem writeFlag_mem (f : Flag) (v : Bool) : (writeFlag f v s).mem = s.mem := rfl
@[simp] theorem writeFlag_answers (f : Flag) (v : Bool) : (writeFlag f v s).answers = s.answers := rfl
@[simp] theorem writeFlag_busLog (f : Flag) (v : Bool) : (writeFlag f v s).busLog = s.busLog := rfl
@[simp] theorem writeFlag_events (f : Flag) (v : Bool) : (writeFlag f v s).events = s.events := rfl

/-! loadA -/

@[simp] theorem loadA_a (v : Byte) : (loadA v s).a = v := rfl
@[simp] theorem loadA_x (v : Byte) : (loadA v s).x = s.x := rfl
@[simp] theorem loadA_y (v : Byte) : (loadA v s).y = s.y := rfl
@[simp] theorem loadA_p (v : Byte) : (loadA v s).p = setNZ v s.p := rfl
@[simp] theorem loadA_pc (v : Byte) : (loadA v s).pc = s.pc := rfl
@[simp] theorem loadA_sp (v : Byte) : (loadA v s).sp = s.sp := rfl
@[simp] theorem loadA_ir (v : Byte) : (loadA v s).ir = s.ir := rfl
@[simp] theorem loadA_phase (v : Byte) : (loadA v s).phase = s.phase := rfl
@[simp] theorem loadA_resetDelay (v : Byte) : (loadA v s).resetDelay = s.resetDelay := rfl
@[simp] theorem loadA_aaa (v : Byte) : (loadA v s).aaa = s.aaa := rfl
@[simp] theorem loadA_bbb (v : Byte) : (loadA v s).bbb = s.bbb := rfl
@[simp] theorem loadA_cc (v : Byte) : (loadA v s).cc = s.cc := rfl
@[simp] theorem loadA_foundAddress (v : Byte) : (loadA v s).foundAddress = s.foundAddress := rfl
@[simp] theorem loadA_accessAddress (v : Byte) : (loadA v s).accessAddress = s.accessAddress := rfl
@[simp] theorem loadA_indirectAddress (v : Byte) : (loadA v s).indirectAddress = s.indirectAddress := rfl
@[simp] theorem loadA_oldPc (v : Byte) : (loadA v s).oldPc = s.oldPc := rfl
@[simp] theorem loadA_offset (v : Byte) : (loadA v s).offset = s.offset := rfl
@[simp] theorem loadA_compareOperand (v : Byte) : (loadA v s).compareOperand = s.compareOperand := rfl
@[simp] theorem loadA_instructionCount (v : Byte) : (loadA v s).instructionCount = s.instructionCount := rfl
@[simp] theorem loadA_isRunning (v : Byte) : (loadA v s).isRunning = s.isRunning := rfl
@[simp] theorem loadA_cfg (v : Byte) : (loadA v s).cfg = s.cfg := rfl
@[simp] theorem loadA_readBound (v : Byte) : (loadA v s).readBound = s.readBound := rfl
@[simp] theorem loadA_writeBound (v : Byte) : (loadA v s).writeBound = s.writeBound := rfl
@[simp] theorem loadA_mem (v : Byte) : (loadA v s).mem = s.mem := rfl
@[simp] theorem loadA_answers (v : Byte) : (loadA v s).answers = s.answers := rfl
@[simp] theorem loadA_busLog (v : Byte) : (loadA v s).busLog = s.busLog := rfl
@[simp] theorem loadA_events (v : Byte) : (loadA v s).events = s.events := rfl

/-! loadX -/

@[simp] theorem loadX_a (v : Byte) : (loadX v s).a = s.a := rfl
@[simp] theorem loadX_x (v : Byte) : (loadX v s).x = v := rfl
@[simp] theorem loadX_y (v : Byte) : (loadX v s).y = s.y := rfl
@[simp] theorem loadX_p (v : Byte) : (loadX v s).p = setNZ v s.p := rfl
@[simp] theorem loadX_pc (v : Byte) : (loadX v s).pc = s.pc := rfl
@[simp] theorem loadX_sp (v : Byte) : (loadX v s).sp = s.sp := rfl
@[simp] theorem loadX_ir (v : Byte) : (loadX v s).ir = s.ir := rfl
@[simp] theorem loadX_phase (v : Byte) : (loadX v s).phase = s.phase := rfl
@[simp] theorem loadX_resetDelay (v : Byte) : (loadX v s).resetDelay = s.resetDelay := rfl
@[simp] theorem loadX_aaa (v : Byte) : (loadX v s).aaa = s.aaa := rfl
@[simp] theorem loadX_bbb (v : Byte) : (loadX v s).bbb = s.bbb := rfl
@[simp] theorem loadX_cc (v : Byte) : (loadX v s).cc = s.cc := rfl
@[simp] theorem loadX_foundAddress (v : Byte) : (loadX v s).foundAddress = s.foundAddress := rfl
@[simp] theorem loadX_accessAddress (v : Byte) : (loadX v s).accessAddress = s.accessAddress := rfl
@[simp] theorem loadX_indirectAddress (v : Byte) : (loadX v s).indirectAddress = s.indirectAddress := rfl
@[simp] theorem loadX_oldPc (v : Byte) : (loadX v s).oldPc = s.oldPc := rfl
@[simp] theorem loadX_offset (v : Byte) : (loadX v s).offset = s.offset := rfl
@[simp] theorem loadX_compareOperand (v : Byte) : (loadX v s).compareOperand = s.compareOperand := rfl
@[simp] theorem loadX_instructionCount (v : Byte) : (loadX v s).instructionCount = s.instructionCount := rfl
@[simp] theorem loadX_isRunning (v : Byte) : (loadX v s).isRunning = s.isRunning := rfl
@[simp] theorem loadX_cfg (v : Byte) : (loadX v s).cfg = s.cfg := rfl
@[simp] theorem loadX_readBound (v : Byte) : (loadX v s).readBound = s.readBound := rfl
@[simp] theorem loadX_writeBound (v : Byte) : (loadX v s).writeBound = s.writeBound := rfl
@[simp] theorem loadX_mem (v : Byte) : (loadX v s).mem = s.mem := rfl
@[simp] theorem loadX_answers (v : Byte) : (loadX v s).answers = s.answers := rfl
@[simp] theorem loadX_busLog (v : Byte) : (loadX v s).busLog = s.busLog := rfl
@[simp] theorem loadX_events (v : Byte) : (loadX v s).events = s.events := rfl

/-! loadY -/

@[simp] theorem loadY_a (v : Byte) : (loadY v s).a = s.a := rfl
@[simp] theorem loadY_x (v : Byte) : (loadY v s).x = s.x := rfl
@[simp] theorem loadY_y (v : Byte) : (loadY v s).y = v := rfl
@[simp] theorem loadY_p (v : Byte) : (loadY v s).p = setNZ v s.p := rfl
@[simp] theorem loadY_pc (v : Byte) : (loadY v s).pc = s.pc := rfl
@[simp] theorem loadY_sp (v : Byte) : (loadY v s).sp = s.sp := rfl
@[simp] theorem loadY_ir (v : Byte) : (loadY v s).ir = s.ir := rfl
@[simp] theorem loadY_phase (v : Byte) : (loadY v s).phase = s.phase := rfl
@[simp] theorem loadY_resetDelay (v : Byte) : (loadY v s).resetDelay = s.resetDelay := rfl
@[simp] theorem loadY_aaa (v : Byte) : (loadY v s).aaa = s.aaa := rfl
@[simp] theorem loadY_bbb (v : Byte) : (loadY v s).bbb = s.bbb := rfl
@[simp] theorem loadY_cc (v : Byte) : (loadY v s).cc = s.cc := rfl
@[simp] theorem loadY_foundAddress (v : Byte) : (loadY v s).foundAddress = s.foundAddress := rfl
@[simp] theorem loadY_accessAddress (v : Byte) : (loadY v s).accessAddress = s.accessAddress := rfl
@[simp] theorem loadY_indirectAddress (v : Byte) : (loadY v s).indirectAddress = s.indirectAddress := rfl
@[simp] theorem loadY_oldPc (v : Byte) : (loadY v s).oldPc = s.oldPc := rfl
@[simp] theorem loadY_offset (v : Byte) : (loadY v s).offset = s.offset := rfl
@[simp] theorem loadY_compareOperand (v : Byte) : (loadY v s).compareOperand = s.compareOperand := rfl
@[simp] theorem loadY_instructionCount (v : Byte) : (loadY v s).instructionCount = s.instructionCount := rfl
@[simp] theorem loadY_isRunning (v : Byte) : (loadY v s).isRunning = s.isRunning := rfl
@[simp] theorem loadY_cfg (v : Byte) : (loadY v s).cfg = s.cfg := rfl
@[simp] theorem loadY_readBound (v : Byte) : (loadY v s).readBound = s.readBound := rfl
@[simp] theorem loadY_writeBound (v : Byte) : (loadY v s).writeBound = s.writeBound := rfl
@[simp] theorem loadY_mem (v : Byte) : (loadY v s).mem = s.mem := rfl
@[simp] theorem loadY_answers (v : Byte) : (loadY v s).answers = s.answers := rfl
@[simp] theorem loadY_busLog (v : Byte) : (loadY v s).busLog = s.busLog := rfl
@[simp] theorem loadY_events (v : Byte) : (loadY v s).events = s.events := rfl

/-! hostPoke -/

@[simp] theorem hostPoke_a (addr : Word) (v : Byte) : (hostPoke addr v s).a = s.a := rfl
@[simp] theorem hostPoke_x (addr : Word) (v : Byte) : (hostPoke addr v s).x = s.x := rfl
@[simp] theorem hostPoke_y (addr : Word) (v : Byte) : (hostPoke addr v s).y = s.y := rfl
@[simp] theorem hostPoke_p (addr : Word) (v : Byte) : (hostPoke addr v s).p = s.p := rfl
@[simp] theorem hostPoke_pc (addr : Word) (v : Byte) : (hostPoke addr v s).pc = s.pc := rfl
@[simp] theorem hostPoke_sp (addr : Word) (v : Byte) : (hostPoke addr v s).sp = s.sp := rfl
@[simp] theorem hostPoke_ir (addr : Word) (v : Byte) : (hostPoke addr v s).ir = s.ir := rfl
@[simp] theorem hostPoke_phase (addr : Word) (v : Byte) : (hostPoke addr v s).phase = s.phase := rfl
@[simp] theorem hostPoke_resetDelay (addr : Word) (v : Byte) : (hostPoke addr v s).resetDelay = s.resetDelay := rfl
@[simp] theorem hostPoke_aaa (addr : Word) (v : Byte) : (hostPoke addr v s).aaa = s.aaa := rfl
@[simp] theorem hostPoke_bbb (addr : Word) (v : Byte) : (hostPoke addr v s).bbb = s.bbb := rfl
@[simp] theorem hostPoke_cc (addr : Word) (v : Byte) : (hostPoke addr v s).cc = s.cc := rfl
@[simp] theorem hostPoke_foundAddress (addr : Word) (v : Byte) : (hostPoke addr v s).foundAddress = s.foundAddress := rfl
@[simp] theorem hostPoke_accessAddress (addr : Word) (v : Byte) : (hostPoke addr v s).accessAddress = s.accessAddress := rfl
@[simp] theorem hostPoke_indirectAddress (addr : Word) (v : Byte) : (hostPoke addr v s).indirectAddress = s.indirectAddress := rfl
@[simp] theorem hostPoke_oldPc (addr : Word) (v : Byte) : (hostPoke addr v s).oldPc = s.oldPc := rfl
@[simp] theorem hostPoke_offset (addr : Word) (v : Byte) : (hostPoke addr v s).offset = s.offset := rfl
@[simp] theorem hostPoke_compareOperand (addr : Word) (v : Byte) : (hostPoke addr v s).compareOperand = s.compareOperand := rfl
@[simp] theorem hostPoke_instructionCount (addr : Word) (v : Byte) : (hostPoke addr v s).instructionCount = s.instructionCount := rfl
@[simp] theorem hostPoke_isRunning (addr : Word) (v : Byte) : (hostPoke addr v s).isRunning = s.isRunning := rfl
@[simp] theorem hostPoke_cfg (addr : Word) (v : Byte) : (hostPoke addr v s).cfg = s.cfg := rfl
@[simp] theorem hostPoke_readBound (addr : Word) (v : Byte) : (hostPoke addr v s).readBound = s.readBound := rfl
@[simp] theorem hostPoke_writeBound (addr : Word) (v : Byte) : (hostPoke addr v s).writeBound = s.writeBound := rfl
@[simp] theorem hostPoke_mem (addr : Word) (v : Byte) : (hostPoke addr v s).mem = writeByte s.mem addr.toNat v := rfl
@[simp] theorem hostPoke_answers (addr : Word) (v : Byte) : (hostPoke addr v s).answers = s.answers := rfl
@[simp] theorem hostPoke_busLog (addr : Word) (v : Byte) : (hostPoke addr v s).busLog = s.busLog := rfl
@[simp] theorem hostPoke_events (addr : Word) (v : Byte) : (hostPoke addr v s).events = s.events := rfl

/-! hostAnswer -/

@[simp] theorem hostAnswer_a (l : List (Option Byte)) : (hostAnswer l s).a = s.a := rfl
@[simp] theorem hostAnswer_x (l : List (Option Byte)) : (hostAnswer l s).x = s.x := rfl
@[simp] theorem hostAnswer_y (l : List (Option Byte)) : (hostAnswer l s).y = s.y := rfl
@[simp] theorem hostAnswer_p (l : List (Option Byte)) : (hostAnswer l s).p = s.p := rfl
@[simp] theorem hostAnswer_pc (l : List (Option Byte)) : (hostAnswer l s).pc = s.pc := rfl
@[simp] theorem hostAnswer_sp (l : List (Option Byte)) : (hostAnswer l s).sp = s.sp := rfl
@[simp] theorem hostAnswer_ir (l : List (Option Byte)) : (hostAnswer l s).ir = s.ir := rfl
@[simp] theorem hostAnswer_phase (l : List (Option Byte)) : (hostAnswer l s).phase = s.phase := rfl
@[simp] theorem hostAnswer_resetDelay (l : List (Option Byte)) : (hostAnswer l s).resetDelay = s.resetDelay := rfl
@[simp] theorem hostAnswer_aaa (l : List (Option Byte)) : (hostAnswer l s).aaa = s.aaa := rfl
@[simp] theorem hostAnswer_bbb (l : List (Option Byte)) : (hostAnswer l s).bbb = s.bbb := rfl
@[simp] theorem hostAnswer_cc (l : List (Option Byte)) : (hostAnswer l s).cc = s.cc := rfl
@[simp] theorem hostAnswer_foundAddress (l : List (Option Byte)) : (hostAnswer l s).foundAddress = s.foundAddress := rfl
@[simp] theorem hostAnswer_accessAddress (l : List (Option Byte)) : (hostAnswer l s).accessAddress = s.accessAddress := rfl
@[simp] theorem hostAnswer_indirectAddress (l : List (Option Byte)) : (hostAnswer l s).indirectAddress = s.indirectAddress := rfl
@[simp] theorem hostAnswer_oldPc (l : List (Option Byte)) : (hostAnswer l s).oldPc = s.oldPc := rfl
@[simp] theorem hostAnswer_offset (l : List (Option Byte)) : (hostAnswer l s).offset = s.offset := rfl
@[simp] theorem hostAnswer_compareOperand (l : List (Option Byte)) : (hostAnswer l s).compareOperand = s.compareOperand := rfl
@[simp] theorem hostAnswer_instructionCount (l : List (Option Byte)) : (hostAnswer l s).instructionCount = s.instructionCount := rfl
@[simp] theorem hostAnswer_isRunning (l : List (Option Byte)) : (hostAnswer l s).isRunning = s.isRunning := rfl
@[simp] theorem hostAnswer_cfg (l : List (Option Byte)) : (hostAnswer l s).cfg = s.cfg := rfl
@[simp] theorem hostAnswer_readBound (l : List (Option Byte)) : (hostAnswer l s).readBound = s.readBound := rfl
@[simp] theorem hostAnswer_writeBound (l : List (Option Byte)) : (hostAnswer l s).writeBound = s.writeBound := rfl
@[simp] theorem hostAnswer_mem (l : List (Option Byte)) : (hostAnswer l s).mem = s.mem := rfl
@[simp] theorem hostAnswer_answers (l : List (Option Byte)) : (hostAnswer l s).answers = l := rfl
@[simp] theorem hostAnswer_busLog (l : List (Option Byte)) : (hostAnswer l s).busLog = s.busLog := rfl
@[simp] theorem hostAnswer_events (l : List (Option Byte)) : (hostAnswer l s).events = s.events := rfl

/-! What the host answers does not depend on the phase, the registers or the events. -/

@[simp] theorem busAnswer_goto (c : Phase) (addr : Word) : busAnswer (goto c s) addr = busAnswer s addr := rfl
@[simp] theorem busAnswer_done (addr : Word) : busAnswer (done s) addr = busAnswer s addr := rfl
@[simp] theorem busAnswer_addressReady (ea addr : Word) : busAnswer (addressReady ea s) addr = busAnswer s addr := rfl

/-- A host with no answer in hand answers from its memory. -/
theorem busAnswer_of_ram (addr : Word) (h : s.answers = []) : busAnswer s addr = readByte s.mem addr.toNat := by
  simp [busAnswer, h]

end Sys2Proof.Laws
end

