-- ==== Sys2Proof/Laws/Operands.lean ====
section
/-! SUPPORT. What each shape of handler can do when it answers a next state: one inversion lemma for each, which later
proofs cite instead of unfolding the handler, and one equation for each part that is due. -/

namespace Sys2Proof.Laws

open Sys2Proof.Machine

variable {s t : State} {m : Mode}

/-- One step of the resolver is one of its seven procedures' parts. -/
theorem resolve_cases (h : resolve m s = some t) :
    (m = .imm ∧ s.phase = .c1 ∧ t = { addressReady s.pc s with pc := s.pc + 1 }) ∨
    (m = .zp ∧ s.phase = .c1 ∧ t = addressReady (zext16 (pcByte s)) (takePcByte s)) ∨
    ((m = .abs ∨ m = .absY) ∧ s.phase = .c1 ∧ t = takeLowOperand s) ∨
    (m = .abs ∧ s.phase = .c2 ∧ t = addressReady (setHigh s.accessAddress (pcByte s)) (takePcByte s)) ∨
    (m = .absY ∧ s.phase = .c2 ∧
      t = addressReady (setHigh s.accessAddress (pcByte s) + zext16 s.y) (takePcByte s)) ∨
    (m = .izx ∧ s.phase = .c1 ∧
      t = { takePcByte s with indirectAddress := zext16 (pcByte s + s.x), phase := .c2 }) ∨
    (m = .izx ∧ s.phase = .c2 ∧
      t = { busRead s s.indirectAddress with
            accessAddress := setLow s.accessAddress (busAnswer s s.indirectAddress), phase := .c3 }) ∨
    (m = .izx ∧ s.phase = .c3 ∧
      t = addressReady (setHigh s.accessAddress (busAnswer s (izxHighAddr s))) (busRead s (izxHighAddr s))) := by
  cases m <;>
    simp only [resolve, resolveImm, resolveZp, resolveAbs, resolveAbsY, resolveIzx] at h <;>
    split at h <;> simp_all

/-- A resolving step is taken in one of the mode's own phases. -/
theorem resolve_phase (h : resolve m s = some t) : s.phase ∈ resolvePhases m := by
  cases m <;> cases hp : s.phase <;>
    simp_all [resolve, resolveImm, resolveZp, resolveAbs, resolveAbsY, resolveIzx, resolvePhases]

/-- A resolving step stores nothing. -/
theorem resolve_mem (h : resolve m s = some t) : t.mem = s.mem := by
  cases m <;> cases hp : s.phase <;>
    simp only [resolve, resolveImm, resolveZp, resolveAbs, resolveAbsY, resolveIzx, hp, Option.some.injEq, reduceCtorEq]
      at h <;>
    exact h ▸ rfl

/-- A handler over the resolver fetches, operates, or resolves (and operates in the same step in immediate mode). -/
theorem withOperand_cases {operate : State → Host.Outcome State Fault Refusal}
    (h : withOperand m operate s = .next t) :
    (s.phase = .idle ∧ t = fetchStep s) ∨
    (isAddressReady s.phase = true ∧ s.foundAddress = true ∧ operate s = .next t) ∨
    (s.foundAddress = false ∧ ∃ u, resolve m s = some u ∧
      ((m = .imm ∧ operate u = .next t) ∨ (m ≠ .imm ∧ t = u))) := by
  simp only [withOperand, stuck] at h
  split at h
  · exact .inl ⟨‹_›, by simpa using h.symm⟩
  iterate 3
    · refine .inr (.inl ?_)
      split at h <;> simp_all [isAddressReady]
  · refine .inr (.inr ?_)
    split at h
    · simp at h
    · split at h
      · simp at h
      · refine ⟨by simp_all, _, ‹_›, ?_⟩
        split at h <;> simp_all

theorem operateRead_cases {op : Byte → State → State} (h : operateRead op s = .next t) :
    s.phase = .operate ∧ t = done (op (operand s) (latchOperand s)) := by
  simp only [operateRead, stuck] at h
  split at h <;> simp_all

theorem operateStore_cases {reg : State → Byte} (h : operateStore reg s = .next t) :
    s.phase = .operate ∧ t = done (busWrite s s.accessAddress (reg s)) := by
  simp only [operateStore, stuck] at h
  split at h <;> simp_all

theorem operateRmw_cases {shift flags : Byte → Byte → Byte} (h : operateRmw shift flags s = .next t) :
    (s.phase = .operate ∧ t = goto .writeback1 (latchOperand s)) ∨
    (s.phase = .writeback1 ∧ t = goto .writeback2
      { s with compareOperand := shift s.compareOperand s.p, p := flags s.compareOperand s.p }) ∨
    (s.phase = .writeback2 ∧ t = done (busWrite s s.accessAddress s.compareOperand)) := by
  simp only [operateRmw, stuck] at h
  split at h <;> simp_all

theorem oneCallInstr_cases {f : State → State} (h : oneCallInstr f s = .next t) :
    (s.phase = .idle ∧ t = fetchStep s) ∨ (s.phase = .c1 ∧ t = done (f s)) := by
  simp only [oneCallInstr, stuck] at h
  split at h <;> simp_all

theorem haltingInstr_cases {trap : State → State} (h : haltingInstr trap s = .next t) :
    (s.phase = .idle ∧ t = fetchStep s) ∨ (s.phase = .c1 ∧ t = trap s) := by
  simp only [haltingInstr, stuck] at h
  split at h <;> simp_all

theorem unmodelledStep_cases (h : unmodelledStep s = .next t) :
    (s.phase = .idle ∧ t = fetchStep s) ∨
    (s.phase = .c1 ∧ s.cfg.unmodelled = .nop1 ∧ t = done s) ∨
    (s.phase = .c1 ∧ s.cfg.unmodelled = .halt ∧ t = trapIllegal s) ∨
    (s.phase = .c1 ∧ s.cfg.unmodelled = .hang ∧ t = s) := by
  simp only [unmodelledStep, stuck] at h
  split at h
  · simp_all
  · split at h <;> simp_all
  · simp at h

theorem branchStep_cases {taken : State → Bool} (h : branchStep taken s = .next t) :
    (s.phase = .idle ∧ t = fetchStep s) ∨
    (s.phase = .c1 ∧ taken s = true ∧ t = goto .c2 (fetchOffset s)) ∨
    (s.phase = .c1 ∧ taken s = false ∧ t = done (fetchOffset s)) ∨
    (s.phase = .c2 ∧ branchCrosses s.oldPc s.offset = true ∧
      t = goto .c3 { s with pc := branchLowSum s.oldPc s.offset }) ∨
    (s.phase = .c2 ∧ branchCrosses s.oldPc s.offset = false ∧
      t = done { s with pc := branchLowSum s.oldPc s.offset }) ∨
    (s.phase = .c3 ∧ t = done { s with pc := branchTarget s.oldPc s.offset }) := by
  simp only [branchStep, stuck] at h
  split at h
  · simp_all
  · cases hk : taken s <;> simp_all
  · cases hk : branchCrosses s.oldPc s.offset <;> simp_all
  · simp_all
  · simp at h

theorem execJsr_cases (h : execJsr s = .next t) :
    (s.phase = .idle ∧ t = fetchStep s) ∨
    (s.phase = .c1 ∧ t = takeLowOperand s) ∨
    (s.phase = .c2 ∧ t = goto .c3 (takeHighOperand s)) ∨
    (s.phase = .c3 ∧ t = goto .c4 { push s (highByte (s.pc - 1)) with oldPc := s.pc - 1 }) ∨
    (s.phase = .c4 ∧ t = done { push s (lowByte s.oldPc) with pc := s.accessAddress }) := by
  simp only [execJsr, stuck] at h
  split at h <;> simp_all

theorem execRts_cases (h : execRts s = .next t) :
    (s.phase = .idle ∧ t = fetchStep s) ∨
    (s.phase = .c1 ∧ t = goto .c2 (busRead s s.pc)) ∨
    (s.phase = .c2 ∧ t = goto .c3 { pulled s with accessAddress := setLow s.accessAddress (pullByte s) }) ∨
    (s.phase = .c3 ∧ t = done { pulled s with
      accessAddress := setHigh s.accessAddress (pullByte s)
      pc := setHigh s.accessAddress (pullByte s) + 1 }) := by
  simp only [execRts, stuck] at h
  split at h <;> simp_all

theorem execJmpAbs_cases (h : execJmpAbs s = .next t) :
    (s.phase = .idle ∧ t = fetchStep s) ∨
    (s.phase = .c1 ∧ t = takeLowOperand s) ∨
    (s.phase = .c2 ∧ t = done { takeHighOperand s with pc := setHigh s.accessAddress (pcByte s) }) := by
  simp only [execJmpAbs, stuck] at h
  split at h <;> simp_all

theorem execJmpInd_cases (h : execJmpInd s = .next t) :
    (s.phase = .idle ∧ t = fetchStep s) ∨
    (s.phase = .c1 ∧ t = goto .c2 { takePcByte s with indirectAddress := setLow s.indirectAddress (pcByte s) }) ∨
    (s.phase = .c2 ∧ t = goto .c3 { takePcByte s with indirectAddress := setHigh s.indirectAddress (pcByte s) }) ∨
    (s.phase = .c3 ∧ t = goto .c4 s) ∨
    (s.phase = .c4 ∧ t = goto .c5 { busRead s s.indirectAddress with
      accessAddress := setLow s.accessAddress (busAnswer s s.indirectAddress) }) ∨
    (s.phase = .c5 ∧ t = done { busRead s (s.indirectAddress + 1) with
      accessAddress := setHigh s.accessAddress (busAnswer s (s.indirectAddress + 1))
      pc := setHigh s.accessAddress (busAnswer s (s.indirectAddress + 1)) }) := by
  simp only [execJmpInd, stuck] at h
  split at h <;> simp_all

/-- What a call of a read-class instruction can do. -/
theorem readInstr_cases {op : Byte → State → State} (h : readInstr m op s = .next t) :
    (s.phase = .idle ∧ t = fetchStep s) ∨
    (s.phase = .operate ∧ s.foundAddress = true ∧ t = done (op (operand s) (latchOperand s))) ∨
    (m = .imm ∧ s.phase = .c1 ∧ s.foundAddress = false ∧
      ∃ u, u = { addressReady s.pc s with pc := s.pc + 1 } ∧ t = done (op (operand u) (latchOperand u))) ∨
    (m ≠ .imm ∧ s.foundAddress = false ∧ resolve m s = some t) := by
  rcases withOperand_cases h with h | ⟨-, hf, h⟩ | ⟨hf, u, hu, ⟨hm, h⟩ | ⟨hm, rfl⟩⟩
  · exact .inl h
  · exact .inr (.inl ⟨(operateRead_cases h).1, hf, (operateRead_cases h).2⟩)
  · subst hm
    rcases resolve_cases hu with ⟨-, hp, rfl⟩ | hu
    · exact .inr (.inr (.inl ⟨rfl, hp, hf, _, rfl, (operateRead_cases h).2⟩))
    · simp at hu
  · exact .inr (.inr (.inr ⟨hm, hf, hu⟩))

/-- What a call of a store-class instruction in a mode other than immediate can do. -/
theorem storeInstr_cases {reg : State → Byte} (hm : m ≠ .imm) (h : storeInstr m reg s = .next t) :
    (s.phase = .idle ∧ t = fetchStep s) ∨
    (s.phase = .operate ∧ s.foundAddress = true ∧ t = done (busWrite s s.accessAddress (reg s))) ∨
    (s.foundAddress = false ∧ resolve m s = some t) := by
  rcases withOperand_cases h with h | ⟨-, hf, h⟩ | ⟨hf, u, hu, ⟨hm', h⟩ | ⟨-, rfl⟩⟩
  · exact .inl h
  · exact .inr (.inl ⟨(operateStore_cases h).1, hf, (operateStore_cases h).2⟩)
  · exact absurd hm' hm
  · exact .inr (.inr ⟨hf, hu⟩)

/-- What a call of a read-modify-write instruction in a mode other than immediate can do. -/
theorem rmwInstr_cases {shift flags : Byte → Byte → Byte} (hm : m ≠ .imm) (h : rmwInstr m shift flags s = .next t) :
    (s.phase = .idle ∧ t = fetchStep s) ∨
    (s.phase = .operate ∧ s.foundAddress = true ∧ t = goto .writeback1 (latchOperand s)) ∨
    (s.phase = .writeback1 ∧ s.foundAddress = true ∧ t = goto .writeback2
      { s with compareOperand := shift s.compareOperand s.p, p := flags s.compareOperand s.p }) ∨
    (s.phase = .writeback2 ∧ s.foundAddress = true ∧ t = done (busWrite s s.accessAddress s.compareOperand)) ∨
    (s.foundAddress = false ∧ resolve m s = some t) := by
  rcases withOperand_cases h with h | ⟨-, hf, h⟩ | ⟨hf, u, hu, ⟨hm', h⟩ | ⟨-, rfl⟩⟩
  · exact .inl h
  · rcases operateRmw_cases h with ⟨hp, h⟩ | ⟨hp, h⟩ | ⟨hp, h⟩
    · exact .inr (.inl ⟨hp, hf, h⟩)
    · exact .inr (.inr (.inl ⟨hp, hf, h⟩))
    · exact .inr (.inr (.inr (.inl ⟨hp, hf, h⟩)))
  · exact absurd hm' hm
  · exact .inr (.inr (.inr (.inr ⟨hf, hu⟩)))

/-! ## The part that is due -/

theorem withOperand_idle {operate : State → Host.Outcome State Fault Refusal} (h : s.phase = .idle) :
    withOperand m operate s = .next (fetchStep s) := by
  simp [withOperand, h]

theorem withOperand_ready {operate : State → Host.Outcome State Fault Refusal}
    (h : isAddressReady s.phase = true) (hf : s.foundAddress = true) : withOperand m operate s = operate s := by
  cases hp : s.phase <;> simp_all [isAddressReady, withOperand]

theorem withOperand_resolving {operate : State → Host.Outcome State Fault Refusal} (hm : m ≠ .imm)
    (hf : s.foundAddress = false) (h : resolve m s = some t) : withOperand m operate s = .next t := by
  have hp := resolve_phase h
  cases m <;> simp only [resolvePhases, List.mem_cons, List.not_mem_nil, or_false] at hp
  · exact absurd rfl hm
  · simp [withOperand, hp, hf, h]
  · rcases hp with hp | hp <;> simp [withOperand, hp, hf, h]
  · rcases hp with hp | hp <;> simp [withOperand, hp, hf, h]
  · rcases hp with hp | hp | hp <;> simp [withOperand, hp, hf, h]

theorem withOperand_imm {operate : State → Host.Outcome State Fault Refusal} (hp : s.phase = .c1)
    (hf : s.foundAddress = false) :
    withOperand .imm operate s = operate { addressReady s.pc s with pc := s.pc + 1 } := by
  simp [withOperand, hp, hf, resolve, resolveImm]

end Sys2Proof.Laws
end

