-- ==== Sys2Proof/Laws/Effect.lean ====
section
/-! SUPPORT. Everything one call of an instruction can do, said once: `exec_effect` turns `exec i s = next t` into one
`Effect`, from which the frames and the invariants follow without unfolding a meaning. The tables give each constructor's
own computation. -/

namespace Sys2Proof.Laws

open Sys2Proof.Machine

/-- The mode and the computation of a read-class instruction. -/
def readOp : Instr → Option (Mode × (Byte → State → State))
  | .ora m => some (m, fun v t => loadA (t.a ||| v) t)
  | .and m => some (m, fun v t => loadA (t.a &&& v) t)
  | .eor m => some (m, fun v t => loadA (t.a ^^^ v) t)
  | .adc m => some (m, fun v t => { t with a := add8 t.a v t.p, p := add8Flags t.a v t.p })
  | .lda m => some (m, fun v t => loadA v t)
  | .cmp m => some (m, fun v t => { t with p := compareFlags t.a v t.p })
  | .sbc m => some (m, fun v t => { t with a := sub8 t.a v t.p, p := sub8Flags t.a v t.p })
  | .ldx m => some (m, fun v t => loadX v t)
  | .ldy m => some (m, fun v t => loadY v t)
  | .cpx m => some (m, fun v t => { t with p := compareFlags t.x v t.p })
  | .cpy m => some (m, fun v t => { t with p := compareFlags t.y v t.p })
  | .bit m => some (m, fun v t => { t with p := bitTestFlags t.a v t.p })
  | _ => none

/-- The mode and the register of a store-class instruction. -/
def storeOp : Instr → Option (Mode × (State → Byte))
  | .sta m => some (m, fun t => t.a)
  | .stx m => some (m, fun t => t.x)
  | .sty m => some (m, fun t => t.y)
  | _ => none

/-- The mode, the shift and its flags, of a read-modify-write instruction. -/
def rmwOp : Instr → Option (Mode × (Byte → Byte → Byte) × (Byte → Byte → Byte))
  | .asl m => some (m, fun v _ => asl8 v, asl8Flags)
  | .rol m => some (m, rol8, rol8Flags)
  | _ => none

/-- What the one execute call of a 2-call instruction does. -/
def oneCallOp : Instr → Option (State → State)
  | .nopStaImm => some fun t => { t with accessAddress := t.pc, pc := t.pc + 1, foundAddress := true }
  | .aslA => some fun t => { t with a := asl8 t.a, p := asl8Flags t.a t.p }
  | .rolA => some fun t => { t with a := rol8 t.a t.p, p := rol8Flags t.a t.p }
  | .clc => some (writeFlag .car false)
  | .sec => some (writeFlag .car true)
  | .cli => some (writeFlag .ire false)
  | .sei => some (writeFlag .ire true)
  | .clv => some (writeFlag .ovr false)
  | .cld => some (writeFlag .dec false)
  | .sed => some (writeFlag .dec true)
  | .php => some fun t => push t (phpByte t.p)
  | .plp => some fun t => { pulled t with p := plpFlags t.cfg.plpIgn (pullByte t) }
  | .pha => some fun t => push t t.a
  | .pla => some fun t => loadA (pullByte t) (pulled t)
  | .tax => some fun t => loadX t.a t
  | .txa => some fun t => loadA t.x t
  | .tay => some fun t => loadY t.a t
  | .tya => some fun t => loadA t.y t
  | .inx => some fun t => loadX (t.x + 1) t
  | .iny => some fun t => loadY (t.y + 1) t
  | .dex => some fun t => loadX (t.x - 1) t
  | .dey => some fun t => loadY (t.y - 1) t
  | .incA => some fun t => loadA (t.a + 1) t
  | .decA => some fun t => loadA (t.a - 1) t
  | .nop => some fun t => t
  | .dbg => some fun t => emit (traceEvent t) t
  | _ => none

/-- What the one execute call of a halting instruction does. -/
def haltOp : Instr → Option (State → State)
  | .brk => some halt
  | .illegal _ => some trapIllegal
  | _ => none

/-- The condition of a branch. -/
def branchOp : Instr → Option (State → Bool)
  | .bpl => some fun t => !getFlag .neg t.p
  | .bmi => some fun t => getFlag .neg t.p
  | .bvc => some fun t => !getFlag .ovr t.p
  | .bvs => some fun t => getFlag .ovr t.p
  | .bcc => some fun t => !getFlag .car t.p
  | .bcs => some fun t => getFlag .car t.p
  | .bne => some fun t => !getFlag .zer t.p
  | .beq => some fun t => getFlag .zer t.p
  | _ => none

/-- The shape of an instruction's meaning, with the equation that says so. -/
inductive Shape (i : Instr) : Prop
  | read (m : Mode) (op : Byte → State → State) (h : readOp i = some (m, op)) (e : ∀ s, exec i s = readInstr m op s)
  | store (m : Mode) (reg : State → Byte) (h : storeOp i = some (m, reg)) (e : ∀ s, exec i s = storeInstr m reg s)
  | rmw (m : Mode) (shift flags : Byte → Byte → Byte) (h : rmwOp i = some (m, shift, flags))
      (e : ∀ s, exec i s = rmwInstr m shift flags s)
  | oneCall (f : State → State) (h : oneCallOp i = some f) (e : ∀ s, exec i s = oneCallInstr f s)
  | halting (f : State → State) (h : haltOp i = some f) (e : ∀ s, exec i s = haltingInstr f s)
  | branch (taken : State → Bool) (h : branchOp i = some taken) (e : ∀ s, exec i s = branchStep taken s)
  | unmodelled (h : isUnmodelled i = true) (e : ∀ s, exec i s = unmodelledStep s)
  | jsr (h : i = .jsr) (e : ∀ s, exec i s = execJsr s)
  | rts (h : i = .rts) (e : ∀ s, exec i s = execRts s)
  | jmpAbs (h : i = .jmpAbs) (e : ∀ s, exec i s = execJmpAbs s)
  | jmpInd (h : i = .jmpInd) (e : ∀ s, exec i s = execJmpInd s)

/-- Every instruction has one of the shapes. -/
theorem exec_shape (i : Instr) : Shape i := by
  cases i with
  | ora m | and m | eor m | adc m | lda m | cmp m | sbc m | ldx m | ldy m | cpx m | cpy m | bit m =>
    exact .read _ _ rfl fun _ => rfl
  | sta m | stx m | sty m => exact .store _ _ rfl fun _ => rfl
  | asl m | rol m => exact .rmw _ _ _ rfl fun _ => rfl
  | bpl | bmi | bvc | bvs | bcc | bcs | bne | beq => exact .branch _ rfl fun _ => rfl
  | unmodelledOra _ | unmodelledAnd _ | unmodelledEor _ | unmodelledAdc _ | unmodelledSta _ | unmodelledLda _
  | unmodelledCmp _ | unmodelledSbc _ | unmodelledAsl _ | unmodelledRol _ => exact .unmodelled rfl fun _ => rfl
  | jsr => exact .jsr rfl fun _ => rfl
  | rts => exact .rts rfl fun _ => rfl
  | jmpAbs => exact .jmpAbs rfl fun _ => rfl
  | jmpInd => exact .jmpInd rfl fun _ => rfl
  | brk | illegal _ => exact .halting _ rfl fun _ => rfl
  | _ => exact .oneCall _ rfl fun _ => rfl

/-- What one call of instruction `i` in state `s` can leave. -/
inductive Effect (i : Instr) (s : State) : State → Prop
  /-- The fetch step (R102). -/
  | fetch (hp : s.phase = .idle) : Effect i s (fetchStep s)
  /-- A resolving step (R106). -/
  | resolving (m : Mode) (t : State) (hi : operandMode i = some m) (hf : s.foundAddress = false)
      (h : resolve m s = some t) (hm : m ≠ .imm) : Effect i s t
  /-- The Operate part of a read-class instruction, the address found (R113). -/
  | read (m : Mode) (op : Byte → State → State) (hi : readOp i = some (m, op)) (hp : s.phase = .operate)
      (hf : s.foundAddress = true) : Effect i s (done (op (operand s) (latchOperand s)))
  /-- The one execute step of a read-class instruction in immediate mode (R107, R113). -/
  | readImm (op : Byte → State → State) (u : State) (hi : readOp i = some (.imm, op)) (hp : s.phase = .c1)
      (hf : s.foundAddress = false) (hu : u = { addressReady s.pc s with pc := s.pc + 1 }) :
      Effect i s (done (op (operand u) (latchOperand u)))
  /-- The Operate part of a store (R114). -/
  | store (m : Mode) (reg : State → Byte) (hi : storeOp i = some (m, reg)) (hp : s.phase = .operate)
      (hf : s.foundAddress = true) : Effect i s (done (busWrite s s.accessAddress (reg s)))
  /-- The three parts of a read-modify-write (R115). -/
  | rmwRead (m : Mode) (shift flags : Byte → Byte → Byte) (hi : rmwOp i = some (m, shift, flags))
      (hp : s.phase = .operate) (hf : s.foundAddress = true) : Effect i s (goto .writeback1 (latchOperand s))
  | rmwCompute (m : Mode) (shift flags : Byte → Byte → Byte) (hi : rmwOp i = some (m, shift, flags))
      (hp : s.phase = .writeback1) (hf : s.foundAddress = true) :
      Effect i s (goto .writeback2
        { s with compareOperand := shift s.compareOperand s.p, p := flags s.compareOperand s.p })
  | rmwWrite (m : Mode) (shift flags : Byte → Byte → Byte) (hi : rmwOp i = some (m, shift, flags))
      (hp : s.phase = .writeback2) (hf : s.foundAddress = true) :
      Effect i s (done (busWrite s s.accessAddress s.compareOperand))
  /-- A term that is no row: a store or a read-modify-write in immediate mode. -/
  | storeImm (reg : State → Byte) (u : State) (hi : storeOp i = some (.imm, reg)) (hp : s.phase = .c1)
      (hu : u = { addressReady s.pc s with pc := s.pc + 1 }) : Effect i s (done (busWrite u u.accessAddress (reg u)))
  | rmwImm (shift flags : Byte → Byte → Byte) (u : State) (hi : rmwOp i = some (.imm, shift, flags)) (hp : s.phase = .c1)
      (hu : u = { addressReady s.pc s with pc := s.pc + 1 }) : Effect i s (goto .writeback1 (latchOperand u))
  /-- The one execute call of a 2-call instruction. -/
  | oneCall (f : State → State) (hi : oneCallOp i = some f) (hp : s.phase = .c1) : Effect i s (done (f s))
  /-- The halting call of BRK or of the illegal-opcode trap. -/
  | halting (f : State → State) (hi : haltOp i = some f) (hp : s.phase = .c1) : Effect i s (f s)
  /-- An unmodelled-mode opcode under each policy (R150). -/
  | unmodelledNop (hi : isUnmodelled i = true) (hp : s.phase = .c1) (hk : s.cfg.unmodelled = .nop1) :
      Effect i s (done s)
  | unmodelledHalt (hi : isUnmodelled i = true) (hp : s.phase = .c1) (hk : s.cfg.unmodelled = .halt) :
      Effect i s (trapIllegal s)
  | unmodelledHang (hi : isUnmodelled i = true) (hp : s.phase = .c1) (hk : s.cfg.unmodelled = .hang) : Effect i s s
  /-- The parts of a branch (R181). -/
  | branchTaken (taken : State → Bool) (hi : branchOp i = some taken) (hp : s.phase = .c1) (hk : taken s = true) :
      Effect i s (goto .c2 (fetchOffset s))
  | branchNotTaken (taken : State → Bool) (hi : branchOp i = some taken) (hp : s.phase = .c1) (hk : taken s = false) :
      Effect i s (done (fetchOffset s))
  | branchCross (taken : State → Bool) (hi : branchOp i = some taken) (hp : s.phase = .c2)
      (hk : branchCrosses s.oldPc s.offset = true) :
      Effect i s (goto .c3 { s with pc := branchLowSum s.oldPc s.offset })
  | branchSamePage (taken : State → Bool) (hi : branchOp i = some taken) (hp : s.phase = .c2)
      (hk : branchCrosses s.oldPc s.offset = false) :
      Effect i s (done { s with pc := branchLowSum s.oldPc s.offset })
  | branchFixPage (taken : State → Bool) (hi : branchOp i = some taken) (hp : s.phase = .c3) :
      Effect i s (done { s with pc := branchTarget s.oldPc s.offset })
  /-- The parts of JSR (R206). -/
  | jsr1 (hi : i = .jsr) (hp : s.phase = .c1) : Effect i s (takeLowOperand s)
  | jsr2 (hi : i = .jsr) (hp : s.phase = .c2) : Effect i s (goto .c3 (takeHighOperand s))
  | jsr3 (hi : i = .jsr) (hp : s.phase = .c3) :
      Effect i s (goto .c4 { push s (highByte (s.pc - 1)) with oldPc := s.pc - 1 })
  | jsr4 (hi : i = .jsr) (hp : s.phase = .c4) :
      Effect i s (done { push s (lowByte s.oldPc) with pc := s.accessAddress })
  /-- The parts of RTS (R207). -/
  | rts1 (hi : i = .rts) (hp : s.phase = .c1) : Effect i s (goto .c2 (busRead s s.pc))
  | rts2 (hi : i = .rts) (hp : s.phase = .c2) :
      Effect i s (goto .c3 { pulled s with accessAddress := setLow s.accessAddress (pullByte s) })
  | rts3 (hi : i = .rts) (hp : s.phase = .c3) :
      Effect i s (done { pulled s with
        accessAddress := setHigh s.accessAddress (pullByte s)
        pc := setHigh s.accessAddress (pullByte s) + 1 })
  /-- The parts of JMP absolute (R208). -/
  | jmpAbs1 (hi : i = .jmpAbs) (hp : s.phase = .c1) : Effect i s (takeLowOperand s)
  | jmpAbs2 (hi : i = .jmpAbs) (hp : s.phase = .c2) :
      Effect i s (done { takeHighOperand s with pc := setHigh s.accessAddress (pcByte s) })
  /-- The parts of JMP indirect (R209). -/
  | jmpInd1 (hi : i = .jmpInd) (hp : s.phase = .c1) :
      Effect i s (goto .c2 { takePcByte s with indirectAddress := setLow s.indirectAddress (pcByte s) })
  | jmpInd2 (hi : i = .jmpInd) (hp : s.phase = .c2) :
      Effect i s (goto .c3 { takePcByte s with indirectAddress := setHigh s.indirectAddress (pcByte s) })
  | jmpInd3 (hi : i = .jmpInd) (hp : s.phase = .c3) : Effect i s (goto .c4 s)
  | jmpInd4 (hi : i = .jmpInd) (hp : s.phase = .c4) :
      Effect i s (goto .c5 { busRead s s.indirectAddress with
        accessAddress := setLow s.accessAddress (busAnswer s s.indirectAddress) })
  | jmpInd5 (hi : i = .jmpInd) (hp : s.phase = .c5) :
      Effect i s (done { busRead s (s.indirectAddress + 1) with
        accessAddress := setHigh s.accessAddress (busAnswer s (s.indirectAddress + 1))
        pc := setHigh s.accessAddress (busAnswer s (s.indirectAddress + 1)) })

variable {i : Instr} {s t : State} {m : Mode}

/-- The mode of a read-class instruction is its resolver mode, and so for the other two classes. -/
theorem operandMode_of_readOp {op : Byte → State → State} (h : readOp i = some (m, op)) : operandMode i = some m := by
  cases i <;> simp_all [readOp, operandMode]

theorem operandMode_of_storeOp {reg : State → Byte} (h : storeOp i = some (m, reg)) : operandMode i = some m := by
  cases i <;> simp_all [storeOp, operandMode]

theorem operandMode_of_rmwOp {shift flags : Byte → Byte → Byte} (h : rmwOp i = some (m, shift, flags)) :
    operandMode i = some m := by
  cases i <;> simp_all [rmwOp, operandMode]

/-- A well-formed store or read-modify-write has no immediate mode. -/
theorem storeOp_wf {reg : State → Byte} (hw : i.wf = true) (h : storeOp i = some (m, reg)) : m ≠ .imm := by
  rintro rfl
  cases i <;> simp_all [storeOp, Instr.wf, Mode.isZpOrAbs]

theorem rmwOp_wf {shift flags : Byte → Byte → Byte} (hw : i.wf = true) (h : rmwOp i = some (m, shift, flags)) :
    m ≠ .imm := by
  rintro rfl
  cases i <;> simp_all [rmwOp, Instr.wf, Mode.isZpOrAbs]

theorem readInstr_effect {op : Byte → State → State} (hi : readOp i = some (m, op)) (h : readInstr m op s = .next t) :
    Effect i s t := by
  rcases readInstr_cases h with ⟨hp, rfl⟩ | ⟨hp, hf, rfl⟩ | ⟨rfl, hp, hf, u, hu, rfl⟩ | ⟨hm, hf, hr⟩
  · exact .fetch hp
  · exact .read m op hi hp hf
  · exact .readImm op u hi hp hf hu
  · exact .resolving m t (operandMode_of_readOp hi) hf hr hm

theorem storeInstr_effect {reg : State → Byte} (hi : storeOp i = some (m, reg)) (h : storeInstr m reg s = .next t) :
    Effect i s t := by
  rcases withOperand_cases h with ⟨hp, rfl⟩ | ⟨-, hf, ho⟩ | ⟨hf, u, hu, ⟨rfl, ho⟩ | ⟨hm, rfl⟩⟩
  · exact .fetch hp
  · obtain ⟨hp, rfl⟩ := operateStore_cases ho
    exact .store m reg hi hp hf
  · obtain ⟨-, rfl⟩ := operateStore_cases ho
    rcases resolve_cases hu with ⟨-, hp, hu⟩ | hu
    · exact .storeImm reg u hi hp hu
    · simp at hu
  · exact .resolving m t (operandMode_of_storeOp hi) hf hu hm

theorem rmwInstr_effect {shift flags : Byte → Byte → Byte} (hi : rmwOp i = some (m, shift, flags))
    (h : rmwInstr m shift flags s = .next t) : Effect i s t := by
  rcases withOperand_cases h with ⟨hp, rfl⟩ | ⟨-, hf, ho⟩ | ⟨hf, u, hu, ⟨rfl, ho⟩ | ⟨hm, rfl⟩⟩
  · exact .fetch hp
  · rcases operateRmw_cases ho with ⟨hp, rfl⟩ | ⟨hp, rfl⟩ | ⟨hp, rfl⟩
    · exact .rmwRead m shift flags hi hp hf
    · exact .rmwCompute m shift flags hi hp hf
    · exact .rmwWrite m shift flags hi hp hf
  · rcases resolve_cases hu with ⟨-, hp, hu⟩ | hu
    · rcases operateRmw_cases ho with ⟨-, rfl⟩ | ⟨hp', -⟩ | ⟨hp', -⟩
      · exact .rmwImm shift flags u hi hp hu
      all_goals simp [hu, addressReady] at hp'
    · simp at hu
  · exact .resolving m t (operandMode_of_rmwOp hi) hf hu hm

/-- Everything a call that answers a next state can have done. -/
theorem exec_effect (h : exec i s = .next t) : Effect i s t := by
  cases exec_shape i with
  | read m op hi e => exact readInstr_effect hi (e s ▸ h)
  | store m reg hi e => exact storeInstr_effect hi (e s ▸ h)
  | rmw m shift flags hi e => exact rmwInstr_effect hi (e s ▸ h)
  | oneCall f hi e =>
    rcases oneCallInstr_cases (e s ▸ h) with ⟨hp, rfl⟩ | ⟨hp, rfl⟩
    · exact .fetch hp
    · exact .oneCall f hi hp
  | halting f hi e =>
    rcases haltingInstr_cases (e s ▸ h) with ⟨hp, rfl⟩ | ⟨hp, rfl⟩
    · exact .fetch hp
    · exact .halting f hi hp
  | branch taken hi e =>
    rcases branchStep_cases (e s ▸ h) with
      ⟨hp, rfl⟩ | ⟨hp, hk, rfl⟩ | ⟨hp, hk, rfl⟩ | ⟨hp, hk, rfl⟩ | ⟨hp, hk, rfl⟩ | ⟨hp, rfl⟩
    · exact .fetch hp
    · exact .branchTaken taken hi hp hk
    · exact .branchNotTaken taken hi hp hk
    · exact .branchCross taken hi hp hk
    · exact .branchSamePage taken hi hp hk
    · exact .branchFixPage taken hi hp
  | unmodelled hi e =>
    rcases unmodelledStep_cases (e s ▸ h) with ⟨hp, rfl⟩ | ⟨hp, hk, rfl⟩ | ⟨hp, hk, rfl⟩ | ⟨hp, hk, rfl⟩
    · exact .fetch hp
    · exact .unmodelledNop hi hp hk
    · exact .unmodelledHalt hi hp hk
    · exact .unmodelledHang hi hp hk
  | jsr hi e =>
    rcases execJsr_cases (e s ▸ h) with ⟨hp, rfl⟩ | ⟨hp, rfl⟩ | ⟨hp, rfl⟩ | ⟨hp, rfl⟩ | ⟨hp, rfl⟩
    exacts [.fetch hp, .jsr1 hi hp, .jsr2 hi hp, .jsr3 hi hp, .jsr4 hi hp]
  | rts hi e =>
    rcases execRts_cases (e s ▸ h) with ⟨hp, rfl⟩ | ⟨hp, rfl⟩ | ⟨hp, rfl⟩ | ⟨hp, rfl⟩
    exacts [.fetch hp, .rts1 hi hp, .rts2 hi hp, .rts3 hi hp]
  | jmpAbs hi e =>
    rcases execJmpAbs_cases (e s ▸ h) with ⟨hp, rfl⟩ | ⟨hp, rfl⟩ | ⟨hp, rfl⟩
    exacts [.fetch hp, .jmpAbs1 hi hp, .jmpAbs2 hi hp]
  | jmpInd hi e =>
    rcases execJmpInd_cases (e s ▸ h) with ⟨hp, rfl⟩ | ⟨hp, rfl⟩ | ⟨hp, rfl⟩ | ⟨hp, rfl⟩ | ⟨hp, rfl⟩ | ⟨hp, rfl⟩
    exacts [.fetch hp, .jmpInd1 hi hp, .jmpInd2 hi hp, .jmpInd3 hi hp, .jmpInd4 hi hp, .jmpInd5 hi hp]

/-- Every call of an instruction keeps the memory's canonical form. -/
theorem exec_memWf (h : exec i s = .next t) (hm : Memory.wf s.mem = true) : Memory.wf t.mem = true := by
  cases exec_effect h with
  | resolving m t hi hf hr hn => rw [resolve_mem hr]; exact hm
  | read m op hi hp hf => cases i <;> simp [readOp] at hi <;> obtain ⟨rfl, rfl⟩ := hi <;> exact hm
  | readImm op u hi hp hf hu => subst hu; cases i <;> simp [readOp] at hi <;> obtain ⟨rfl, rfl⟩ := hi <;> exact hm
  | storeImm reg u hi hp hu => subst hu; exact busWrite_memWf _ _ _ hm
  | rmwImm shift flags u hi hp hu => subst hu; exact hm
  | oneCall f hi hp =>
    cases i <;> simp [oneCallOp] at hi <;> subst hi <;> first | exact hm | exact push_memWf s _ hm
  | halting f hi hp => cases i <;> simp [haltOp] at hi <;> subst hi <;> exact hm
  | store m reg hi hp hf => exact busWrite_memWf s _ _ hm
  | rmwWrite m shift flags hi hp hf => exact busWrite_memWf s _ _ hm
  | jsr3 hi hp => exact push_memWf s _ hm
  | jsr4 hi hp => exact push_memWf s _ hm
  | _ => exact hm

end Sys2Proof.Laws
end

