-- ==== Sys2Proof/Laws/Flags.lean ====
section
/-! SUPPORT. The laws of single bits of P and of the two halves of a word. -/

namespace Sys2Proof.Laws

open Sys2Proof.Machine

/-- A flag read after one flag is written. -/
theorem getFlag_setFlag (f g : Flag) (v : Bool) (p : Byte) :
    getFlag g (setFlag f v p) = if g = f then v else getFlag g p := by
  cases v <;> cases f <;> cases g <;> simp [getFlag, setFlag, flagMask, flagBit]

@[simp] theorem getFlag_setFlag_same (f : Flag) (v : Bool) (p : Byte) : getFlag f (setFlag f v p) = v := by
  simp [getFlag_setFlag]

theorem getFlag_setFlag_other (f g : Flag) (v : Bool) (p : Byte) (h : g ≠ f) :
    getFlag g (setFlag f v p) = getFlag g p := by
  simp [getFlag_setFlag, h]

/-- The bits of a concatenation. -/
theorem getLsbD_mkWord (h l : Byte) (i : Nat) :
    (mkWord h l).getLsbD i = if i < 8 then l.getLsbD i else h.getLsbD (i - 8) := by
  rw [show (mkWord h l).getLsbD i = (h ++ l).getLsbD i from rfl, BitVec.getLsbD_append]

@[simp] theorem highByte_mkWord (h l : Byte) : highByte (mkWord h l) = h := by
  refine BitVec.eq_of_getLsbD_eq fun i hi => ?_
  simp [highByte, getLsbD_mkWord, hi]

@[simp] theorem lowByte_mkWord (h l : Byte) : lowByte (mkWord h l) = l := by
  refine BitVec.eq_of_getLsbD_eq fun i hi => ?_
  simp [lowByte, getLsbD_mkWord, hi]

@[simp] theorem mkWord_high_low (v : Word) : mkWord (highByte v) (lowByte v) = v := by
  refine BitVec.eq_of_getLsbD_eq fun i hi => ?_
  rw [getLsbD_mkWord]
  split
  · simp_all [lowByte]
  · simp only [highByte, BitVec.getLsbD_extractLsb', show i - 8 < 8 by omega, show 8 + (i - 8) = i by omega,
      decide_true, Bool.true_and]

/-- R13: the concatenation is h * 256 + l. -/
theorem toNat_mkWord (h l : Byte) : (mkWord h l).toNat = h.toNat * 256 + l.toNat := by
  have hl := l.isLt
  simp only [mkWord, BitVec.toNat_append]
  rw [← Nat.shiftLeft_add_eq_or_of_lt hl, Nat.shiftLeft_eq]

/-- Replacing the low half and then the high half leaves the two new bytes. -/
theorem setHigh_setLow (v : Word) (h l : Byte) : setHigh (setLow v l) h = mkWord h l := by
  simp [setHigh, setLow]

end Sys2Proof.Laws
end

