-- ==== Sys2Proof/Laws/PerInstr.lean ====
section
/-! SUPPORT. The per-instruction family Sizes: every row of the opcode table is 1 to 3 bytes long (spec/30_encoding.md R71,
R74) and takes 2 to 6 calls (spec/70_reset_and_hazards.md R340), a branch its calls when it is not taken. One lemma for
each constructor. -/

namespace Sys2Proof.Laws.Sizes

/-- The sizes of one well-formed instruction. -/
def Statement (i : Instr) : Prop :=
  i.wf = true → (1 ≤ i.length ∧ i.length ≤ 3) ∧ (2 ≤ i.calls ∧ i.calls ≤ 6)

theorem ora (m : Mode) : Statement (.ora m) := fun _ => by cases m <;> decide
theorem and (m : Mode) : Statement (.and m) := fun _ => by cases m <;> decide
theorem eor (m : Mode) : Statement (.eor m) := fun _ => by cases m <;> decide
theorem adc (m : Mode) : Statement (.adc m) := fun _ => by cases m <;> decide
theorem sta (m : Mode) : Statement (.sta m) := fun _ => by cases m <;> decide
theorem lda (m : Mode) : Statement (.lda m) := fun _ => by cases m <;> decide
theorem cmp (m : Mode) : Statement (.cmp m) := fun _ => by cases m <;> decide
theorem sbc (m : Mode) : Statement (.sbc m) := fun _ => by cases m <;> decide
theorem nopStaImm : Statement .nopStaImm := fun _ => by decide
theorem unmodelledOra (slot : BitVec 3) : Statement (.unmodelledOra slot) := fun _ => by simp [Instr.length, Instr.calls]
theorem unmodelledAnd (slot : BitVec 3) : Statement (.unmodelledAnd slot) := fun _ => by simp [Instr.length, Instr.calls]
theorem unmodelledEor (slot : BitVec 3) : Statement (.unmodelledEor slot) := fun _ => by simp [Instr.length, Instr.calls]
theorem unmodelledAdc (slot : BitVec 3) : Statement (.unmodelledAdc slot) := fun _ => by simp [Instr.length, Instr.calls]
theorem unmodelledSta (slot : BitVec 3) : Statement (.unmodelledSta slot) := fun _ => by simp [Instr.length, Instr.calls]
theorem unmodelledLda (slot : BitVec 3) : Statement (.unmodelledLda slot) := fun _ => by simp [Instr.length, Instr.calls]
theorem unmodelledCmp (slot : BitVec 3) : Statement (.unmodelledCmp slot) := fun _ => by simp [Instr.length, Instr.calls]
theorem unmodelledSbc (slot : BitVec 3) : Statement (.unmodelledSbc slot) := fun _ => by simp [Instr.length, Instr.calls]
theorem unmodelledAsl (slot : BitVec 3) : Statement (.unmodelledAsl slot) := fun _ => by simp [Instr.length, Instr.calls]
theorem unmodelledRol (slot : BitVec 3) : Statement (.unmodelledRol slot) := fun _ => by simp [Instr.length, Instr.calls]
theorem aslA : Statement .aslA := fun _ => by decide
theorem asl (m : Mode) : Statement (.asl m) := by
  unfold Statement; cases m <;> decide
theorem rolA : Statement .rolA := fun _ => by decide
theorem rol (m : Mode) : Statement (.rol m) := by
  unfold Statement; cases m <;> decide
theorem bpl : Statement .bpl := fun _ => by decide
theorem bmi : Statement .bmi := fun _ => by decide
theorem bvc : Statement .bvc := fun _ => by decide
theorem bvs : Statement .bvs := fun _ => by decide
theorem bcc : Statement .bcc := fun _ => by decide
theorem bcs : Statement .bcs := fun _ => by decide
theorem bne : Statement .bne := fun _ => by decide
theorem beq : Statement .beq := fun _ => by decide
theorem clc : Statement .clc := fun _ => by decide
theorem sec : Statement .sec := fun _ => by decide
theorem cli : Statement .cli := fun _ => by decide
theorem sei : Statement .sei := fun _ => by decide
theorem clv : Statement .clv := fun _ => by decide
theorem cld : Statement .cld := fun _ => by decide
theorem sed : Statement .sed := fun _ => by decide
theorem php : Statement .php := fun _ => by decide
theorem plp : Statement .plp := fun _ => by decide
theorem pha : Statement .pha := fun _ => by decide
theorem pla : Statement .pla := fun _ => by decide
theorem jsr : Statement .jsr := fun _ => by decide
theorem rts : Statement .rts := fun _ => by decide
theorem jmpAbs : Statement .jmpAbs := fun _ => by decide
theorem jmpInd : Statement .jmpInd := fun _ => by decide
theorem tax : Statement .tax := fun _ => by decide
theorem txa : Statement .txa := fun _ => by decide
theorem tay : Statement .tay := fun _ => by decide
theorem tya : Statement .tya := fun _ => by decide
theorem inx : Statement .inx := fun _ => by decide
theorem iny : Statement .iny := fun _ => by decide
theorem dex : Statement .dex := fun _ => by decide
theorem dey : Statement .dey := fun _ => by decide
theorem incA : Statement .incA := fun _ => by decide
theorem decA : Statement .decA := fun _ => by decide
theorem ldx (m : Mode) : Statement (.ldx m) := fun _ => by cases m <;> decide
theorem ldy (m : Mode) : Statement (.ldy m) := fun _ => by cases m <;> decide
theorem stx (m : Mode) : Statement (.stx m) := fun _ => by cases m <;> decide
theorem sty (m : Mode) : Statement (.sty m) := fun _ => by cases m <;> decide
theorem cpx (m : Mode) : Statement (.cpx m) := fun _ => by cases m <;> decide
theorem cpy (m : Mode) : Statement (.cpy m) := fun _ => by cases m <;> decide
theorem bit (m : Mode) : Statement (.bit m) := fun _ => by cases m <;> decide
theorem nop : Statement .nop := fun _ => by decide
theorem dbg : Statement .dbg := fun _ => by decide
theorem brk : Statement .brk := fun _ => by decide
theorem illegal (opcode : Byte) : Statement (.illegal opcode) := fun _ => by simp [Instr.length, Instr.calls]

end Sys2Proof.Laws.Sizes
end

