-- ==== Sys2Proof/Laws/Run.lean ====
section
/-! SUPPORT. One step as one call of the current instruction, and runs of several steps. -/

namespace Sys2Proof.Laws

open Sys2Proof.Machine

variable {s t : State}

/-- Every instruction's first call is the fetch step. -/
theorem exec_idle (i : Instr) (h : s.phase = .idle) : exec i s = .next (fetchStep s) := by
  cases i <;>
    simp [exec, h, execOra, execAnd, execEor, execAdc, execSta, execLda, execCmp, execSbc, execNopStaImm,
      execUnmodelledOra, execUnmodelledAnd, execUnmodelledEor, execUnmodelledAdc, execUnmodelledSta, execUnmodelledLda,
      execUnmodelledCmp, execUnmodelledSbc, execUnmodelledAsl, execUnmodelledRol, execAslA, execAsl, execRolA, execRol,
      execBpl, execBmi, execBvc, execBvs, execBcc, execBcs, execBne, execBeq, execClc, execSec, execCli, execSei, execClv,
      execCld, execSed, execPhp, execPlp, execPha, execPla, execJsr, execRts, execJmpAbs, execJmpInd, execTax, execTxa,
      execTay, execTya, execInx, execIny, execDex, execDey, execIncA, execDecA, execLdx, execLdy, execStx, execSty,
      execCpx, execCpy, execBit, execNop, execDbg, execBrk, execIllegal, readInstr, storeInstr, rmwInstr, withOperand,
      oneCallInstr, haltingInstr, unmodelledStep, branchStep]

theorem step_halted (h : s.isRunning = false) : step s = .next s := by
  simp [step, advanceOneCycle, h]

theorem step_countdown (hr : s.isRunning = true) (hb : busBound s = true) (hd : s.resetDelay ≠ 0) :
    step s = .next (resetCountdownStep s) := by
  unfold step advanceOneCycle
  rw [if_neg (by simp [hr]), if_neg (by simp [hb]), if_pos hd]

theorem step_executing (hr : s.isRunning = true) (hb : busBound s = true) (hd : s.resetDelay = 0) :
    step s = exec (currentInstr s) s := by
  simp [step, advanceOneCycle, hr, hb, hd]

theorem step_fetch (hr : s.isRunning = true) (hb : busBound s = true) (hd : s.resetDelay = 0) (hp : s.phase = .idle) :
    step s = .next (fetchStep s) := by
  rw [step_executing hr hb hd, exec_idle _ hp]

theorem step_execute (hr : s.isRunning = true) (hb : busBound s = true) (hd : s.resetDelay = 0) (hp : s.phase ≠ .idle) :
    step s = exec (decodeOpcode s.ir) s := by
  rw [step_executing hr hb hd, currentInstr, currentOpcode, if_neg hp]

/-- What a step that answers a next state was. -/
theorem step_cases (h : step s = .next t) :
    (s.isRunning = false ∧ t = s) ∨
    (s.isRunning = true ∧ busBound s = true ∧ s.resetDelay ≠ 0 ∧ t = resetCountdownStep s) ∨
    (s.isRunning = true ∧ busBound s = true ∧ s.resetDelay = 0 ∧ exec (currentInstr s) s = .next t) := by
  simp only [step, advanceOneCycle] at h
  split at h
  · exact .inl ⟨‹_›, by simpa using h.symm⟩
  · split at h
    · simp at h
    · split at h
      · exact .inr (.inl ⟨by simp_all, by simp_all, ‹_›, by simpa using h.symm⟩)
      · exact .inr (.inr ⟨by simp_all, by simp_all, by simp_all, h⟩)

@[simp] theorem run_zero : run 0 s = .next s := rfl

theorem run_succ (n : Nat) (h : step s = .next t) : run (n + 1) s = run n t := by
  simp [run, h]

/-- A run of `n + k` calls is a run of `n` and then of `k`. -/
theorem run_add {n k : Nat} (h : run n s = .next t) : run (n + k) s = run k t := by
  induction n generalizing s with
  | zero => simp_all [run]
  | succ n ih =>
    simp only [run] at h
    split at h
    · rw [show n + 1 + k = (n + k) + 1 by omega, run_succ (n + k) ‹_›]
      exact ih h
    · simp at h
    · simp at h

/-- `run` is the host's run of the machine. -/
theorem run_eq_core_run (n : Nat) (s : State) : run n s = Host.Core.run core n s := by
  induction n generalizing s with
  | zero => rfl
  | succ n ih =>
    simp only [run, Host.Core.run, core]
    split <;> simp_all [core]

end Sys2Proof.Laws
end

