-- ==== Sys2Proof/Tests/Slice0.lean ====
section
/-! SUPPORT. The model's own tests: the ill-formed terms, the opcodes written out from the spec's encodings, one step of
each instruction against the vectors of spec/95_test_vectors.md, and a witness for the hypotheses of each obligation. -/

namespace Sys2Proof.Tests

open Sys2Proof.Machine Sys2Proof.Claims

/-! ## Ill-formed terms -/

/-- R82: STA has no immediate mode. -/
theorem test_wf_sta_imm : (Instr.sta .imm).wf = false := by decide

/-- R73: a slot the resolver implements, and slot 010, are no unmodelled slots of the accumulator group. -/
theorem test_wf_unmodelled_group1 :
    (Instr.unmodelledOra 0b001).wf = false ∧ (Instr.unmodelledAnd 0b000).wf = false ∧
    (Instr.unmodelledEor 0b011).wf = false ∧ (Instr.unmodelledAdc 0b110).wf = false ∧
    (Instr.unmodelledSta 0b010).wf = false ∧ (Instr.unmodelledLda 0b010).wf = false ∧
    (Instr.unmodelledCmp 0b001).wf = false ∧ (Instr.unmodelledSbc 0b110).wf = false := by decide

/-- R78: the shift group's slots 000, 100 and 110 are no shifts. -/
theorem test_wf_unmodelled_shift :
    (Instr.unmodelledAsl 0b100).wf = false ∧ (Instr.unmodelledRol 0b000).wf = false := by decide

/-- R78: ASL and ROL have no immediate, indexed or indirect mode. -/
theorem test_wf_shift_modes :
    (Instr.asl .imm).wf = false ∧ (Instr.asl .izx).wf = false ∧ (Instr.rol .absY).wf = false := by decide

/-- R235 to R243: the modes the index group lacks. -/
theorem test_wf_index_modes :
    (Instr.ldx .izx).wf = false ∧ (Instr.ldy .absY).wf = false ∧ (Instr.cpx .izx).wf = false ∧
    (Instr.cpy .absY).wf = false ∧ (Instr.stx .imm).wf = false ∧ (Instr.sty .absY).wf = false ∧
    (Instr.bit .imm).wf = false := by decide

/-- R80: a byte that is an instruction's opcode is not illegal. -/
theorem test_wf_illegal : (Instr.illegal 0xEA).wf = false ∧ (Instr.illegal 0x00).wf = false := by decide

/-! ## Decoding, written out from the encoding rules -/

/-- R73 and R76: the accumulator group, aaa 000 to 011, cc = 01. -/
theorem test_decode_ora_and_eor_adc :
    decodeOpcode 0b00000001 = .ora .izx ∧ decodeOpcode 0b00000101 = .ora .zp ∧ decodeOpcode 0b00001001 = .ora .imm ∧
    decodeOpcode 0b00001101 = .ora .abs ∧ decodeOpcode 0b00011001 = .ora .absY ∧ decodeOpcode 0b00100001 = .and .izx ∧
    decodeOpcode 0b00100101 = .and .zp ∧ decodeOpcode 0b00101001 = .and .imm ∧ decodeOpcode 0b00101101 = .and .abs ∧
    decodeOpcode 0b00111001 = .and .absY ∧ decodeOpcode 0b01000001 = .eor .izx ∧ decodeOpcode 0b01000101 = .eor .zp ∧
    decodeOpcode 0b01001001 = .eor .imm ∧ decodeOpcode 0b01001101 = .eor .abs ∧ decodeOpcode 0b01011001 = .eor .absY ∧
    decodeOpcode 0b01100001 = .adc .izx ∧ decodeOpcode 0b01100101 = .adc .zp ∧ decodeOpcode 0b01101001 = .adc .imm ∧
    decodeOpcode 0b01101101 = .adc .abs ∧ decodeOpcode 0b01111001 = .adc .absY := by
  decide

/-- R73 and R76: the accumulator group, aaa 100 to 111, cc = 01. -/
theorem test_decode_sta_lda_cmp_sbc :
    decodeOpcode 0b10000001 = .sta .izx ∧ decodeOpcode 0b10000101 = .sta .zp ∧ decodeOpcode 0b10001101 = .sta .abs ∧
    decodeOpcode 0b10011001 = .sta .absY ∧ decodeOpcode 0b10100001 = .lda .izx ∧ decodeOpcode 0b10100101 = .lda .zp ∧
    decodeOpcode 0b10101001 = .lda .imm ∧ decodeOpcode 0b10101101 = .lda .abs ∧ decodeOpcode 0b10111001 = .lda .absY ∧
    decodeOpcode 0b11000001 = .cmp .izx ∧ decodeOpcode 0b11000101 = .cmp .zp ∧ decodeOpcode 0b11001001 = .cmp .imm ∧
    decodeOpcode 0b11001101 = .cmp .abs ∧ decodeOpcode 0b11011001 = .cmp .absY ∧ decodeOpcode 0b11100001 = .sbc .izx ∧
    decodeOpcode 0b11100101 = .sbc .zp ∧ decodeOpcode 0b11101001 = .sbc .imm ∧ decodeOpcode 0b11101101 = .sbc .abs ∧
    decodeOpcode 0b11111001 = .sbc .absY := by
  decide

/-- R77: the accumulator group's unmodelled slots, aaa 000 to 011. -/
theorem test_decode_unmodelled_low :
    decodeOpcode 0b00010001 = .unmodelledOra 0b100 ∧ decodeOpcode 0b00010101 = .unmodelledOra 0b101 ∧
    decodeOpcode 0b00011101 = .unmodelledOra 0b111 ∧ decodeOpcode 0b00110001 = .unmodelledAnd 0b100 ∧
    decodeOpcode 0b00110101 = .unmodelledAnd 0b101 ∧ decodeOpcode 0b00111101 = .unmodelledAnd 0b111 ∧
    decodeOpcode 0b01010001 = .unmodelledEor 0b100 ∧ decodeOpcode 0b01010101 = .unmodelledEor 0b101 ∧
    decodeOpcode 0b01011101 = .unmodelledEor 0b111 ∧ decodeOpcode 0b01110001 = .unmodelledAdc 0b100 ∧
    decodeOpcode 0b01110101 = .unmodelledAdc 0b101 ∧ decodeOpcode 0b01111101 = .unmodelledAdc 0b111 := by
  decide

/-- R77: the accumulator group's unmodelled slots, aaa 100 to 111. -/
theorem test_decode_unmodelled_high :
    decodeOpcode 0b10010001 = .unmodelledSta 0b100 ∧ decodeOpcode 0b10010101 = .unmodelledSta 0b101 ∧
    decodeOpcode 0b10011101 = .unmodelledSta 0b111 ∧ decodeOpcode 0b10110001 = .unmodelledLda 0b100 ∧
    decodeOpcode 0b10110101 = .unmodelledLda 0b101 ∧ decodeOpcode 0b10111101 = .unmodelledLda 0b111 ∧
    decodeOpcode 0b11010001 = .unmodelledCmp 0b100 ∧ decodeOpcode 0b11010101 = .unmodelledCmp 0b101 ∧
    decodeOpcode 0b11011101 = .unmodelledCmp 0b111 ∧ decodeOpcode 0b11110001 = .unmodelledSbc 0b100 ∧
    decodeOpcode 0b11110101 = .unmodelledSbc 0b101 ∧ decodeOpcode 0b11111101 = .unmodelledSbc 0b111 := by
  decide

/-- R78: the shift group, cc = 10, with its unmodelled slots; and 0x89 of R82. -/
theorem test_decode_shifts :
    decodeOpcode 0b00000110 = .asl .zp ∧ decodeOpcode 0b00001010 = .aslA ∧ decodeOpcode 0b00001110 = .asl .abs ∧
    decodeOpcode 0b00010110 = .unmodelledAsl 0b101 ∧ decodeOpcode 0b00011110 = .unmodelledAsl 0b111 ∧
    decodeOpcode 0b00100110 = .rol .zp ∧ decodeOpcode 0b00101010 = .rolA ∧ decodeOpcode 0b00101110 = .rol .abs ∧
    decodeOpcode 0b00110110 = .unmodelledRol 0b101 ∧ decodeOpcode 0b00111110 = .unmodelledRol 0b111 ∧
    decodeOpcode 0b10001001 = .nopStaImm := by
  decide

/-- R83: ffp10000. -/
theorem test_decode_branches :
    decodeOpcode 0b00010000 = .bpl ∧ decodeOpcode 0b00110000 = .bmi ∧ decodeOpcode 0b01010000 = .bvc ∧
    decodeOpcode 0b01110000 = .bvs ∧ decodeOpcode 0b10010000 = .bcc ∧ decodeOpcode 0b10110000 = .bcs ∧
    decodeOpcode 0b11010000 = .bne ∧ decodeOpcode 0b11110000 = .beq := by
  decide

/-- R84: ffv11000. -/
theorem test_decode_flags :
    decodeOpcode 0b00011000 = .clc ∧ decodeOpcode 0b00111000 = .sec ∧ decodeOpcode 0b01011000 = .cli ∧
    decodeOpcode 0b01111000 = .sei ∧ decodeOpcode 0b10111000 = .clv ∧ decodeOpcode 0b11011000 = .cld ∧
    decodeOpcode 0b11111000 = .sed := by
  decide

/-- R85: 0ab01000; R79: JSR, RTS, JMP. -/
theorem test_decode_stack_and_jumps :
    decodeOpcode 0b00001000 = .php ∧ decodeOpcode 0b00100000 = .jsr ∧ decodeOpcode 0b00101000 = .plp ∧
    decodeOpcode 0b01001000 = .pha ∧ decodeOpcode 0b01001100 = .jmpAbs ∧ decodeOpcode 0b01100000 = .rts ∧
    decodeOpcode 0b01101000 = .pla ∧ decodeOpcode 0b01101100 = .jmpInd := by
  decide

/-- R79: transfers, increments and decrements. -/
theorem test_decode_transfers :
    decodeOpcode 0b00011010 = .incA ∧ decodeOpcode 0b00111010 = .decA ∧ decodeOpcode 0b10001000 = .dey ∧
    decodeOpcode 0b10001010 = .txa ∧ decodeOpcode 0b10011000 = .tya ∧ decodeOpcode 0b10101000 = .tay ∧
    decodeOpcode 0b10101010 = .tax ∧ decodeOpcode 0b11001000 = .iny ∧ decodeOpcode 0b11001010 = .dex ∧
    decodeOpcode 0b11101000 = .inx := by
  decide

/-- R79: index load, store, compare and BIT. -/
theorem test_decode_index_group :
    decodeOpcode 0b00100100 = .bit .zp ∧ decodeOpcode 0b00101100 = .bit .abs ∧ decodeOpcode 0b10000100 = .sty .zp ∧
    decodeOpcode 0b10000110 = .stx .zp ∧ decodeOpcode 0b10001100 = .sty .abs ∧ decodeOpcode 0b10001110 = .stx .abs ∧
    decodeOpcode 0b10100000 = .ldy .imm ∧ decodeOpcode 0b10100010 = .ldx .imm ∧ decodeOpcode 0b10100100 = .ldy .zp ∧
    decodeOpcode 0b10100110 = .ldx .zp ∧ decodeOpcode 0b10101100 = .ldy .abs ∧ decodeOpcode 0b10101110 = .ldx .abs ∧
    decodeOpcode 0b10111110 = .ldx .absY ∧ decodeOpcode 0b11000000 = .cpy .imm ∧ decodeOpcode 0b11000100 = .cpy .zp ∧
    decodeOpcode 0b11001100 = .cpy .abs ∧ decodeOpcode 0b11100000 = .cpx .imm ∧ decodeOpcode 0b11100100 = .cpx .zp ∧
    decodeOpcode 0b11101100 = .cpx .abs := by
  decide

/-- R79: NOP, DBG, BRK. -/
theorem test_decode_misc :
    decodeOpcode 0b00000000 = .brk ∧ decodeOpcode 0b00000010 = .dbg ∧ decodeOpcode 0b11101010 = .nop := by
  decide

/-- R80: some of the illegal opcodes, one or two of each column. -/
theorem test_decode_illegal :
    decodeOpcode 0b00000011 = .illegal 0b00000011 ∧ decodeOpcode 0b00000100 = .illegal 0b00000100 ∧
    decodeOpcode 0b00010010 = .illegal 0b00010010 ∧ decodeOpcode 0b00011100 = .illegal 0b00011100 ∧
    decodeOpcode 0b01000000 = .illegal 0b01000000 ∧ decodeOpcode 0b01000100 = .illegal 0b01000100 ∧
    decodeOpcode 0b01001010 = .illegal 0b01001010 ∧ decodeOpcode 0b01101111 = .illegal 0b01101111 ∧
    decodeOpcode 0b01111110 = .illegal 0b01111110 ∧ decodeOpcode 0b10000000 = .illegal 0b10000000 ∧
    decodeOpcode 0b10011010 = .illegal 0b10011010 ∧ decodeOpcode 0b10111011 = .illegal 0b10111011 ∧
    decodeOpcode 0b11000010 = .illegal 0b11000010 ∧ decodeOpcode 0b11010100 = .illegal 0b11010100 ∧
    decodeOpcode 0b11100110 = .illegal 0b11100110 ∧ decodeOpcode 0b11111111 = .illegal 0b11111111 := by
  decide

/-- The numbering of spec/opcode_table.json: the opcode is the first byte; a row of no whole byte has no instruction. -/
theorem test_decode_table_word :
    decodeTableWord 8 0xA9 = some (.lda .imm) ∧ decodeTableWord 16 0x42A9 = some (.lda .imm) ∧
    decodeTableWord 0 0xA9 = none := by decide

/-- R88: the displacement counts from the address after the branch; -128 and 127 are the last it reaches. -/
theorem test_branch_offset :
    branchOffset 0x8000 0x8006 = some 0x04 ∧ branchOffset 0x8000 0x8081 = some 0x7F ∧
    branchOffset 0x8000 0x8082 = none ∧ branchOffset 0x8000 0x7F82 = some 0x80 ∧
    branchOffset 0x8000 0x7F81 = none := by decide

/-! ## One step of each instruction -/

/-- A running core within an instruction that was fetched at 0x8000, at a phase, with an address found or not. -/
def busy (ph : Phase) (ready : Bool) (m : Memory) : State :=
  { State.reset with resetDelay := 0, pc := 0x8001, phase := ph, foundAddress := ready, mem := m }

/-- The step answers a next state of which `f` holds. -/
def gives (o : Host.Outcome State Fault Refusal) (f : State → Bool) : Bool :=
  match o with
  | .next t => f t
  | _ => false

/-- L2-1 row 1. -/
theorem test_adc_overflow :
    gives (exec (.adc .imm) { busy .c1 false [(0x8001, 0x50)] with a := 0x50 })
      (fun t => t.a == 0xA0 && t.p == 0xE0 && t.pc == 0x8002) = true := by
  decide

/-- L2-1 row 6. -/
theorem test_adc_binary_in_decimal_mode :
    gives (exec (.adc .imm) { busy .c1 false [(0x8001, 0x01)] with a := 0x09, p := 0x28 })
      (fun t => t.a == 0x0A && t.p == 0x28) = true := by
  decide

/-- L2-1 row 8. -/
theorem test_sbc_overflow :
    gives (exec (.sbc .imm) { busy .c1 false [(0x8001, 0xB0)] with a := 0x50, p := 0x21 })
      (fun t => t.a == 0xA0 && t.p == 0xE0) = true := by
  decide

/-- L2-1 row 11. -/
theorem test_sbc_borrow_in :
    gives (exec (.sbc .imm) { busy .c1 false [(0x8001, 0x05)] with a := 0x05 })
      (fun t => t.a == 0xFF && t.p == 0xA0) = true := by
  decide

/-- L2-1 row 13. -/
theorem test_cmp_equal :
    gives (exec (.cmp .imm) { busy .c1 false [(0x8001, 0x05)] with a := 0x05 })
      (fun t => t.a == 0x05 && t.p == 0x23) = true := by
  decide

/-- L2-1 row 15. -/
theorem test_cmp_unsigned :
    gives (exec (.cmp .imm) { busy .c1 false [(0x8001, 0x01)] with a := 0x80 })
      (fun t => t.p == 0x21) = true := by
  decide

/-- L2-1 row 16. -/
theorem test_ora :
    gives (exec (.ora .imm) { busy .c1 false [(0x8001, 0xF0)] with a := 0x0F })
      (fun t => t.a == 0xFF && t.p == 0xA0) = true := by
  decide

/-- L2-1 row 17. -/
theorem test_and :
    gives (exec (.and .imm) { busy .c1 false [(0x8001, 0x0F)] with a := 0xF0 })
      (fun t => t.a == 0x00 && t.p == 0x22) = true := by
  decide

/-- L2-1 row 18. -/
theorem test_eor :
    gives (exec (.eor .imm) { busy .c1 false [(0x8001, 0xFF)] with a := 0x55 })
      (fun t => t.a == 0xAA && t.p == 0xA0) = true := by
  decide

/-- L2-1 row 19, the Operate step. -/
theorem test_lda_zero :
    gives (exec (.lda .zp) { busy .operate true [] with accessAddress := 0x10, a := 0x55 })
      (fun t => t.a == 0x00 && t.p == 0x22 && t.phase == .idle) = true := by
  decide

/-- L2-1 row 20, its fourth call. -/
theorem test_lda_izx_pointer_stays_in_page_zero :
    gives (exec (.lda .izx)
        { busy .c3 false [(0x00, 0x12), (0xFF, 0x34), (0x1234, 0x99)] with indirectAddress := 0xFF, accessAddress := 0x0034 })
      (fun t => t.accessAddress == 0x1234 && t.phase == .operate && t.foundAddress) = true := by
  decide

/-- L2-1 row 23, its third call. -/
theorem test_sta_absy_address :
    gives (exec (.sta .absY) { busy .c2 false [(0x8002, 0x02)] with pc := 0x8002, accessAddress := 0x0000, y := 0x10 })
      (fun t => t.accessAddress == 0x0210 && t.pc == 0x8003) = true := by
  decide

/-- L2-1 row 23, its last call. -/
theorem test_sta :
    gives (exec (.sta .absY) { busy .operate true [] with accessAddress := 0x0210, a := 0x42, p := 0x21 })
      (fun t => t.mem == [(0x0210, 0x42)] && t.p == 0x21 && t.busLog == [.write 0x0210 0x42]) = true := by
  decide

/-- L2-1 row 25. -/
theorem test_nop_sta_imm :
    gives (exec .nopStaImm { busy .c1 false [(0x8001, 0x42)] with a := 0x11 })
      (fun t => t.pc == 0x8002 && t.a == 0x11 && t.p == 0x20 && t.busLog == []) = true := by
  decide

/-- L2-1 row 26. -/
theorem test_unmodelled_ora :
    gives (exec (.unmodelledOra 0b101) { busy .c1 false [] with a := 0x11 })
      (fun t => t.phase == .idle && t.pc == 0x8001 && t.a == 0x11 && t.p == 0x20) = true := by
  decide

/-- L2-1 row 26. -/
theorem test_unmodelled_and :
    gives (exec (.unmodelledAnd 0b101) { busy .c1 false [] with a := 0x11 })
      (fun t => t.phase == .idle && t.pc == 0x8001 && t.a == 0x11 && t.p == 0x20) = true := by
  decide

/-- L2-1 row 26. -/
theorem test_unmodelled_eor :
    gives (exec (.unmodelledEor 0b101) { busy .c1 false [] with a := 0x11 })
      (fun t => t.phase == .idle && t.pc == 0x8001 && t.a == 0x11 && t.p == 0x20) = true := by
  decide

/-- L2-1 row 26. -/
theorem test_unmodelled_adc :
    gives (exec (.unmodelledAdc 0b101) { busy .c1 false [] with a := 0x11 })
      (fun t => t.phase == .idle && t.pc == 0x8001 && t.a == 0x11 && t.p == 0x20) = true := by
  decide

/-- L2-1 row 26. -/
theorem test_unmodelled_sta :
    gives (exec (.unmodelledSta 0b101) { busy .c1 false [] with a := 0x11 })
      (fun t => t.phase == .idle && t.pc == 0x8001 && t.a == 0x11 && t.p == 0x20) = true := by
  decide

/-- L2-1 row 26. -/
theorem test_unmodelled_lda :
    gives (exec (.unmodelledLda 0b101) { busy .c1 false [] with a := 0x11 })
      (fun t => t.phase == .idle && t.pc == 0x8001 && t.a == 0x11 && t.p == 0x20) = true := by
  decide

/-- L2-1 row 26. -/
theorem test_unmodelled_cmp :
    gives (exec (.unmodelledCmp 0b101) { busy .c1 false [] with a := 0x11 })
      (fun t => t.phase == .idle && t.pc == 0x8001 && t.a == 0x11 && t.p == 0x20) = true := by
  decide

/-- L2-1 row 26. -/
theorem test_unmodelled_sbc :
    gives (exec (.unmodelledSbc 0b101) { busy .c1 false [] with a := 0x11 })
      (fun t => t.phase == .idle && t.pc == 0x8001 && t.a == 0x11 && t.p == 0x20) = true := by
  decide

/-- L2-1 row 26, by R170. -/
theorem test_unmodelled_asl :
    gives (exec (.unmodelledAsl 0b101) { busy .c1 false [] with a := 0x11 })
      (fun t => t.phase == .idle && t.pc == 0x8001 && t.a == 0x11 && t.p == 0x20) = true := by
  decide

/-- L2-1 row 26, by R170. -/
theorem test_unmodelled_rol :
    gives (exec (.unmodelledRol 0b101) { busy .c1 false [] with a := 0x11 })
      (fun t => t.phase == .idle && t.pc == 0x8001 && t.a == 0x11 && t.p == 0x20) = true := by
  decide

/-- L2-1 row 27. -/
theorem test_unmodelled_ora_halt_policy :
    gives (exec (.unmodelledOra 0b101)
        { busy .c1 false [] with ir := 0x15, cfg := { Config.sample with unmodelled := .halt } })
      (fun t => !t.isRunning && t.events == [.illegalOpcode 0x15 0x8000]) = true := by
  decide

/-- L2-2 row 1. -/
theorem test_asl_a :
    gives (exec .aslA { busy .c1 false [] with a := 0x80 })
      (fun t => t.a == 0x00 && t.p == 0x23) = true := by
  decide

/-- L2-2 row 5. -/
theorem test_rol_a :
    gives (exec .rolA { busy .c1 false [] with a := 0x40, p := 0x21 })
      (fun t => t.a == 0x81 && t.p == 0xA0) = true := by
  decide

/-- L2-2 row 6, its fourth call. -/
theorem test_asl_writeback1 :
    gives (exec (.asl .zp) { busy .writeback1 true [(0x10, 0xC0)] with accessAddress := 0x10, compareOperand := 0xC0 })
      (fun t => t.compareOperand == 0x80 && t.p == 0xA1 && t.busLog == [] && t.phase == .writeback2) = true := by
  decide

/-- L2-2 row 6, its last call. -/
theorem test_asl_writeback2 :
    gives (exec (.asl .zp) { busy .writeback2 true [(0x10, 0xC0)] with accessAddress := 0x10, compareOperand := 0x80 })
      (fun t => t.mem == [(0x10, 0x80)] && t.phase == .idle) = true := by
  decide

/-- L2-2 row 7, its fifth call. -/
theorem test_rol_writeback1 :
    gives (exec (.rol .abs) { busy .writeback1 true [] with p := 0x21, compareOperand := 0x00 })
      (fun t => t.compareOperand == 0x01 && t.p == 0x20) = true := by
  decide

/-- L2-2 row 7, its fourth call. -/
theorem test_rol_operate :
    gives (exec (.rol .abs) { busy .operate true [(0x0300, 0x55)] with accessAddress := 0x0300, p := 0x21 })
      (fun t => t.compareOperand == 0x55 && t.p == 0x21 && t.phase == .writeback1) = true := by
  decide

/-- L2-3. -/
theorem test_clc :
    gives (exec .clc { busy .c1 false [] with p := 0x21 })
      (fun t => t.p == 0x20 && t.phase == .idle) = true := by
  decide

/-- L2-3. -/
theorem test_sec :
    gives (exec .sec { busy .c1 false [] with p := 0x20 })
      (fun t => t.p == 0x21 && t.phase == .idle) = true := by
  decide

/-- L2-3. -/
theorem test_cli :
    gives (exec .cli { busy .c1 false [] with p := 0x24 })
      (fun t => t.p == 0x20 && t.phase == .idle) = true := by
  decide

/-- L2-3. -/
theorem test_sei :
    gives (exec .sei { busy .c1 false [] with p := 0x20 })
      (fun t => t.p == 0x24 && t.phase == .idle) = true := by
  decide

/-- L2-3. -/
theorem test_clv :
    gives (exec .clv { busy .c1 false [] with p := 0x60 })
      (fun t => t.p == 0x20 && t.phase == .idle) = true := by
  decide

/-- L2-3. -/
theorem test_cld :
    gives (exec .cld { busy .c1 false [] with p := 0x28 })
      (fun t => t.p == 0x20 && t.phase == .idle) = true := by
  decide

/-- L2-3. -/
theorem test_sed :
    gives (exec .sed { busy .c1 false [] with p := 0x20 })
      (fun t => t.p == 0x28 && t.phase == .idle) = true := by
  decide

/-- L2-4 row 1, its second call. -/
theorem test_bpl_taken :
    gives (exec .bpl (busy .c1 false [(0x8001, 0x04)]))
      (fun t => t.phase == .c2 && t.offset == 0x04 && t.oldPc == 0x8002) = true := by
  decide

/-- L2-4 row 2. -/
theorem test_bmi_not_taken :
    gives (exec .bmi (busy .c1 false [(0x8001, 0x04)]))
      (fun t => t.phase == .idle && t.pc == 0x8002) = true := by
  decide

/-- L2-4 row 3, its third call. -/
theorem test_bvc_page_crossed :
    gives (exec .bvc { busy .c2 false [] with pc := 0x80F2, oldPc := 0x80F2, offset := 0x20 })
      (fun t => t.phase == .c3 && t.pc == 0x8012) = true := by
  decide

/-- L2-4 row 3, its fourth call. -/
theorem test_bvc_fix_page :
    gives (exec .bvc { busy .c3 false [] with pc := 0x8012, oldPc := 0x80F2, offset := 0x20 })
      (fun t => t.phase == .idle && t.pc == 0x8112) = true := by
  decide

/-- L2-4 row 4, its third call. -/
theorem test_bvs_taken :
    gives (exec .bvs { busy .c2 false [] with pc := 0x8002, oldPc := 0x8002, offset := 0xFE, p := 0x60 })
      (fun t => t.phase == .idle && t.pc == 0x8000) = true := by
  decide

/-- L2-4 row 5, its third call. -/
theorem test_bcc_backward_page_crossed :
    gives (exec .bcc { busy .c2 false [] with pc := 0x8001, oldPc := 0x8001, offset := 0x80 })
      (fun t => t.phase == .c3 && t.pc == 0x8081) = true := by
  decide

/-- L2-4 row 5, its fourth call. -/
theorem test_bcc_fix_page :
    gives (exec .bcc { busy .c3 false [] with pc := 0x8081, oldPc := 0x8001, offset := 0x80 })
      (fun t => t.pc == 0x7F81) = true := by
  decide

/-- L2-4 row 7, its third call. -/
theorem test_bcs_same_page :
    gives (exec .bcs { busy .c2 false [] with pc := 0x8100, oldPc := 0x8100, offset := 0x01, p := 0x21 })
      (fun t => t.phase == .idle && t.pc == 0x8101) = true := by
  decide

/-- L2-4 row 8, its second call. -/
theorem test_beq_taken :
    gives (exec .beq { busy .c1 false [] with p := 0x22 })
      (fun t => t.phase == .c2 && t.oldPc == 0x8002) = true := by
  decide

/-- L2-4 row 9, its fourth call. -/
theorem test_bne_page_crossed :
    gives (exec .bne { busy .c3 false [] with pc := 0x8001, oldPc := 0x8082, offset := 0x7F })
      (fun t => t.pc == 0x8101 && t.phase == .idle) = true := by
  decide

/-- L2-5 row 1. -/
theorem test_php :
    gives (exec .php { busy .c1 false [] with p := 0x21 })
      (fun t => t.mem == [(0x01FD, 0x31)] && t.sp == 0xFC && t.p == 0x21) = true := by
  decide

/-- L2-5 row 2. -/
theorem test_plp :
    gives (exec .plp { busy .c1 false [(0x01FD, 0xFF)] with sp := 0xFC })
      (fun t => t.p == 0xEF && t.sp == 0xFD) = true := by
  decide

/-- L2-5 row 3. -/
theorem test_plp_zero :
    gives (exec .plp { busy .c1 false [] with sp := 0xFC })
      (fun t => t.p == 0x20) = true := by
  decide

/-- L2-5 row 5. -/
theorem test_pha_wraps :
    gives (exec .pha { busy .c1 false [] with a := 0x42, sp := 0x00 })
      (fun t => t.mem == [(0x0100, 0x42)] && t.sp == 0xFF) = true := by
  decide

/-- L2-5 row 6. -/
theorem test_pla_wraps :
    gives (exec .pla { busy .c1 false [(0x0100, 0x80)] with sp := 0xFF })
      (fun t => t.a == 0x80 && t.sp == 0x00 && t.p == 0xA0) = true := by
  decide

/-- L2-5 row 8, its last call. -/
theorem test_jmp_abs :
    gives (exec .jmpAbs { busy .c2 false [(0x8002, 0x12)] with pc := 0x8002, accessAddress := 0x0034 })
      (fun t => t.pc == 0x1234 && t.phase == .idle) = true := by
  decide

/-- L2-5 row 9, its last call. -/
theorem test_jmp_ind :
    gives (exec .jmpInd
        { busy .c5 false [(0x1000, 0x50), (0x1100, 0x90)] with indirectAddress := 0x10FF, accessAddress := 0x0000 })
      (fun t => t.pc == 0x9000 && t.phase == .idle) = true := by
  decide

/-- L2-5 row 9, its fourth call. -/
theorem test_jmp_ind_fix_up :
    gives (exec .jmpInd { busy .c3 false [] with indirectAddress := 0x10FF })
      (fun t => t.busLog == [] && t.phase == .c4) = true := by
  decide

/-- L1-3, its fourth call. -/
theorem test_jsr_push_high :
    gives (exec .jsr { busy .c3 false [] with pc := 0x8003, accessAddress := 0x8010 })
      (fun t => t.mem == [(0x01FD, 0x80)] && t.oldPc == 0x8002 && t.sp == 0xFC) = true := by
  decide

/-- L1-3, its fifth call. -/
theorem test_jsr_push_low :
    gives (exec .jsr
        { busy .c4 false [(0x01FD, 0x80)] with sp := 0xFC, pc := 0x8003, oldPc := 0x8002, accessAddress := 0x8010 })
      (fun t => t.mem == [(0x01FC, 0x02), (0x01FD, 0x80)] && t.sp == 0xFB && t.pc == 0x8010) = true := by
  decide

/-- L2-5 row 12, its last call. -/
theorem test_rts_wraps :
    gives (exec .rts { busy .c3 false [(0x01FC, 0xFF), (0x01FD, 0xFF)] with sp := 0xFC, accessAddress := 0x00FF })
      (fun t => t.pc == 0x0000 && t.sp == 0xFD) = true := by
  decide

/-- L1-3, the second call of its RTS. -/
theorem test_rts_dummy_read :
    gives (exec .rts (busy .c1 false []))
      (fun t => t.busLog == [.read 0x8001 0x00] && t.pc == 0x8001 && t.phase == .c2) = true := by
  decide

/-- L2-6 row 1. -/
theorem test_tax :
    gives (exec .tax { busy .c1 false [] with x := 0x55 })
      (fun t => t.x == 0x00 && t.p == 0x22) = true := by
  decide

/-- L2-6 row 2. -/
theorem test_txa :
    gives (exec .txa { busy .c1 false [] with x := 0xFF })
      (fun t => t.a == 0xFF && t.p == 0xA0) = true := by
  decide

/-- L2-6 row 3. -/
theorem test_tay :
    gives (exec .tay { busy .c1 false [] with y := 0x55 })
      (fun t => t.y == 0x00 && t.p == 0x22) = true := by
  decide

/-- L2-6 row 4. -/
theorem test_tya :
    gives (exec .tya { busy .c1 false [] with y := 0x7F })
      (fun t => t.a == 0x7F && t.p == 0x20) = true := by
  decide

/-- L2-6 row 7. -/
theorem test_inx_wraps :
    gives (exec .inx { busy .c1 false [] with x := 0xFF, p := 0x21 })
      (fun t => t.x == 0x00 && t.p == 0x23) = true := by
  decide

/-- L2-6 row 8. -/
theorem test_iny :
    gives (exec .iny { busy .c1 false [] with y := 0x10 })
      (fun t => t.y == 0x11 && t.p == 0x20) = true := by
  decide

/-- L2-6 row 10. -/
theorem test_dex_wraps :
    gives (exec .dex (busy .c1 false []))
      (fun t => t.x == 0xFF && t.p == 0xA0) = true := by
  decide

/-- L2-6 row 11. -/
theorem test_dey_wraps :
    gives (exec .dey (busy .c1 false []))
      (fun t => t.y == 0xFF && t.p == 0xA0) = true := by
  decide

/-- L2-6 row 12. -/
theorem test_inc_a :
    gives (exec .incA { busy .c1 false [] with a := 0xFF })
      (fun t => t.a == 0x00 && t.p == 0x22) = true := by
  decide

/-- L2-6 row 13. -/
theorem test_dec_a :
    gives (exec .decA (busy .c1 false []))
      (fun t => t.a == 0xFF && t.p == 0xA0) = true := by
  decide

/-- L2-7 row 1. -/
theorem test_ldx :
    gives (exec (.ldx .imm) (busy .c1 false [(0x8001, 0x03)]))
      (fun t => t.x == 0x03 && t.p == 0x20) = true := by
  decide

/-- L2-7 row 2, its third call. -/
theorem test_ldx_absy_wraps :
    gives (exec (.ldx .absY) { busy .c2 false [(0x8002, 0xFF)] with pc := 0x8002, accessAddress := 0x00FF, y := 0x02 })
      (fun t => t.accessAddress == 0x0001) = true := by
  decide

/-- L2-7 row 3, its last call. -/
theorem test_ldy :
    gives (exec (.ldy .zp) { busy .operate true [(0x10, 0x80)] with accessAddress := 0x10 })
      (fun t => t.y == 0x80 && t.p == 0xA0) = true := by
  decide

/-- L2-7 row 4, its last call. -/
theorem test_stx :
    gives (exec (.stx .abs) { busy .operate true [] with accessAddress := 0x0300, x := 0x42 })
      (fun t => t.mem == [(0x0300, 0x42)]) = true := by
  decide

/-- L2-7 row 5, its last call. -/
theorem test_sty :
    gives (exec (.sty .zp) { busy .operate true [] with accessAddress := 0x20, y := 0x07 })
      (fun t => t.mem == [(0x20, 0x07)]) = true := by
  decide

/-- L2-7 row 6. -/
theorem test_cpx :
    gives (exec (.cpx .imm) { busy .c1 false [(0x8001, 0x20)] with x := 0x10 })
      (fun t => t.p == 0xA0 && t.x == 0x10) = true := by
  decide

/-- L2-7 row 7. -/
theorem test_cpy :
    gives (exec (.cpy .imm) { busy .c1 false [(0x8001, 0x01)] with y := 0x80 })
      (fun t => t.p == 0x21) = true := by
  decide

/-- L2-7 row 9, its last call. -/
theorem test_bit :
    gives (exec (.bit .zp) { busy .operate true [(0x10, 0xC0)] with accessAddress := 0x10, a := 0x01 })
      (fun t => t.p == 0xE2 && t.a == 0x01) = true := by
  decide

/-- L2-7 row 10, its last call. -/
theorem test_bit_clear :
    gives (exec (.bit .abs) { busy .operate true [(0x0300, 0x3F)] with accessAddress := 0x0300, a := 0xFF })
      (fun t => t.p == 0x20) = true := by
  decide

/-- L2-8 row 1. -/
theorem test_nop :
    gives (exec .nop (busy .c1 false []))
      (fun t => t.pc == 0x8001 && t.p == 0x20 && t.busLog == [] && t.phase == .idle) = true := by
  decide

/-- L2-8 row 2. -/
theorem test_dbg :
    gives (exec .dbg { busy .c1 false [] with ir := 0x02, instructionCount := 1 })
      (fun t => t.events == [.trace 0 0 0 0x20 0x02 0xFD 0x8001 1] && t.isRunning) = true := by
  decide

/-- L2-8 row 3. -/
theorem test_brk :
    gives (exec .brk (busy .c1 false []))
      (fun t => !t.isRunning && t.mem == [] && t.events == [] && t.pc == 0x8001 && t.sp == 0xFD) = true := by
  decide

/-- L2-8 row 6. -/
theorem test_illegal_wraps :
    gives (exec (.illegal 0x03) { busy .c1 false [] with ir := 0x03, pc := 0x0000 })
      (fun t => !t.isRunning && t.events == [.illegalOpcode 0x03 0xFFFF] && t.pc == 0x0000) = true := by
  decide

/-! ## The scheduler, reset and placing -/

/-- L1-9, calls 6 and 7: the vector goes straight into the two halves of PC. -/
theorem test_reset_countdown_low :
    gives (step { State.reset with resetDelay := 2, mem := [(0xFFFD, 0x80)] })
      (fun t => t.pc == 0xFF00 && t.resetDelay == 1 && t.busLog == [.read 0xFFFC 0x00]) = true := by
  decide

theorem test_reset_countdown_high :
    gives (step { State.reset with resetDelay := 1, pc := 0xFF00, mem := [(0xFFFD, 0x80)] })
      (fun t => t.pc == 0x8000 && t.resetDelay == 0 && t.busLog == [.read 0xFFFD 0x80]) = true := by
  decide

/-- L1-9, call 8: the fetch. -/
theorem test_fetch :
    gives (step { State.reset with resetDelay := 0, pc := 0x8000, mem := [(0x8000, 0xA9)] })
      (fun t => t.pc == 0x8001 && t.ir == 0xA9 && t.instructionCount == 1 && t.aaa == 0b101 && t.bbb == 0b010 &&
        t.cc == 0b01 && t.phase == .c1) = true := by
  decide

/-- L2-8 row 7: a halted core does nothing. -/
theorem test_halted :
    gives (step { busy .idle false [(0x8001, 0xA9)] with isRunning := false })
      (fun t => t == { busy .idle false [(0x8001, 0xA9)] with isRunning := false }) = true := by
  decide

/-- R67, D41: a step with no bus bound is refused. -/
theorem test_unbound : step { State.constructed Config.sample with isRunning := true } = .refused .busUnbound := rfl

/-- The values of `cycle` (R33). -/
theorem test_cycle_codes :
    [Phase.idle, .c1, .c2, .c3, .c4, .c5, .operate, .writeback1, .writeback2].map phaseCode =
      [0x00, 0x01, 0x02, 0x03, 0x04, 0x05, 0x80, 0x81, 0x82] := by decide

/-- A placed instruction is fetched by the very next step, from reset as it stands. -/
theorem test_placed :
    gives (step (State.reset.withFetchWord 8 0xEA)) (fun t => t.ir == 0xEA && t.phase == .c1) = true := by
  decide

/-- The byte 0x00 leaves memory unlisted again. -/
theorem test_poke_zero :
    (hostPoke 0x10 0x00 { State.reset with mem := [(0x10, 0x33)] }).mem = [] := by decide

/-! ## Witnesses: states and operands that meet the hypotheses of the obligations -/

/-- ResetWritesEveryField: a reset that hands both capabilities over, one that keeps the old ones, and one with none. -/
theorem witness_reset_bound :
    (true || (State.constructed Config.sample).readBound) = true ∧
    (true || (State.constructed Config.sample).writeBound) = true ∧
    (false || State.reset.readBound) = true ∧ (false || State.reset.writeBound) = true := by decide

theorem witness_reset_unbound :
    (false || (State.constructed Config.sample).readBound) = false ∨
    (true || (State.constructed Config.sample).writeBound) = false := by decide

/-- ResetCountdownLoadsVector: each clause, with a countdown of 7 and with the smallest, 2. -/
theorem witness_countdown :
    State.reset.isRunning = true ∧ busBound State.reset = true ∧ 2 ≤ State.reset.resetDelay.toNat ∧
    5 + 2 ≤ State.reset.resetDelay.toNat ∧ 6 + 1 = State.reset.resetDelay.toNat ∧ 7 = State.reset.resetDelay.toNat := by
  decide

theorem witness_countdown_shortest :
    let s := { State.reset with resetDelay := 2 }
    s.isRunning = true ∧ busBound s = true ∧ 2 ≤ s.resetDelay.toNat ∧ 0 + 2 ≤ s.resetDelay.toNat ∧
    1 + 1 = s.resetDelay.toNat ∧ 2 = s.resetDelay.toNat := by decide

/-- HaltedCoreIsAbsorbing: a halted core, a step that leaves a core running, and a reset. -/
theorem witness_halted : (State.constructed Config.sample).isRunning = false := rfl

theorem witness_still_running : ∃ t, step State.reset = .next t ∧ t.isRunning = true := ⟨_, rfl, rfl⟩

theorem witness_reset_runs : ∃ t, hostReset true true (State.constructed Config.sample) = .next t := ⟨_, rfl⟩

/-- FetchStepEffect, StepRunsDecodedInstruction: a core between two instructions, and one within an instruction. -/
theorem witness_executing_idle : Executing (busy .idle false []) ∧ (busy .idle false []).phase = .idle :=
  ⟨⟨rfl, rfl, rfl⟩, rfl⟩

theorem witness_executing_busy : Executing (busy .c1 false []) ∧ (busy .c1 false []).phase ≠ .idle :=
  ⟨⟨rfl, rfl, rfl⟩, by decide⟩

/-- PlacedInstructionIsRun. -/
theorem witness_placed :
    Memory.wf State.reset.mem = true ∧ decodeTableWord 8 0x20 = some .jsr ∧ decodeTableWord 16 0x42A9 = some (.lda .imm) ∧
    decodeTableWord 24 0x1234AD = some (.lda .abs) := by decide

/-- LogicComplete to ComparesAndBitComplete: the Operate part is due, in immediate mode and in another. -/
theorem witness_operand_ready_imm : OperandReady .imm (busy .c1 false []) := .inl ⟨rfl, rfl, rfl⟩

theorem witness_operand_ready_abs : OperandReady .abs (busy .operate true []) := .inr ⟨by decide, rfl, rfl⟩

/-- StoresComplete, ShiftsComplete: an address found, in each of the three phases. -/
theorem witness_address_found :
    (busy .operate true []).phase = .operate ∧ (busy .writeback1 true []).phase = .writeback1 ∧
    (busy .writeback2 true []).phase = .writeback2 ∧ (busy .operate true []).foundAddress = true ∧
    (busy .writeback1 true []).foundAddress = true ∧ (busy .writeback2 true []).foundAddress = true := by decide

/-- StaImmediateSlotComplete and every other statement of a first execute call. -/
theorem witness_c1 : (busy .c1 false []).phase = .c1 := rfl

/-- UnmodelledModesFollowPolicy: a core of each policy. -/
theorem witness_unmodelled :
    isUnmodelled (.unmodelledOra 0b101) = true ∧ isUnmodelled (.unmodelledRol 0b111) = true ∧
    (busy .c1 false []).cfg.unmodelled = .nop1 ∧
    { busy .c1 false [] with cfg := { Config.sample with unmodelled := .halt } }.phase = .c1 ∧
    { busy .c1 false [] with cfg := { Config.sample with unmodelled := .hang } }.phase = .c1 := by decide

/-- BranchConditionIsFlagEqualsPolarity, BranchPartsComplete: each clause; the target on the last byte of the page, and on
the first of the next. -/
theorem witness_branch_decided :
    isBranch .bmi = true ∧ (busy .c1 false []).phase = .c1 ∧ branchTaken .bmi (busy .c1 false []).p = some false ∧
    isBranch .bpl = true ∧ branchTaken .bpl (busy .c1 false []).p = some true := by decide

theorem witness_branch_same_page :
    let s := { busy .c2 false [] with oldPc := 0x80FE, offset := 0x01 }
    isBranch .bpl = true ∧ s.phase = .c2 ∧ highByte (s.oldPc + s.offset.signExtend 16) = highByte s.oldPc := by decide

theorem witness_branch_crosses :
    let s := { busy .c2 false [] with oldPc := 0x80FF, offset := 0x01 }
    isBranch .bpl = true ∧ s.phase = .c2 ∧ highByte (s.oldPc + s.offset.signExtend 16) ≠ highByte s.oldPc := by decide

theorem witness_branch_fix_page : isBranch .bpl = true ∧ (busy .c3 false []).phase = .c3 := by decide

/-- JsrPartsComplete, RtsPartsComplete, JumpPartsComplete: each phase. -/
theorem witness_phases :
    (busy .c1 false []).phase = .c1 ∧ (busy .c2 false []).phase = .c2 ∧ (busy .c3 false []).phase = .c3 ∧
    (busy .c4 false []).phase = .c4 ∧ (busy .c5 false []).phase = .c5 := by decide

/-- GeneralRegistersWrittenOnlyByListed, StackPointerMovedOnlyByStackInstructions: a call that answers a next state, of an
instruction that writes none of A, X, Y, SP. -/
theorem witness_frame_registers :
    (∃ t, exec .clc (busy .c1 false []) = .next t) ∧ writesA .clc = false ∧ writesX .clc = false ∧
    writesY .clc = false ∧ movesSp .clc = false := ⟨⟨_, rfl⟩, rfl, rfl, rfl, rfl⟩

/-- FlagsWrittenOnlyByListed: an instruction that writes some flags, one that writes none, and BRK clear before. -/
theorem witness_frame_flags :
    (∃ t, exec .clc (busy .c1 false []) = .next t) ∧ writesFlag .zer .clc = false ∧
    (∃ t, exec .nop (busy .c1 false []) = .next t) ∧ (∀ f, writesFlag f .nop = false) ∧
    getFlag .brk (busy .c1 false []).p = false :=
  ⟨⟨_, rfl⟩, rfl, ⟨_, rfl⟩, fun f => by cases f <;> rfl, rfl⟩

/-- FetchFieldsWrittenOnlyByFetch, ScratchFieldsWrittenOnlyByListed. -/
theorem witness_frame_scratch :
    (∃ t, exec .tax (busy .c1 false []) = .next t) ∧ (busy .c1 false []).phase ≠ .idle ∧
    writesAccessAddress .tax = false ∧ writesIndirectAddress .tax = false ∧ writesOldPc .tax = false ∧
    isBranch .tax = false ∧ latchesOperand .tax = false ∧ operandMode .tax = none ∧ Instr.tax ≠ .nopStaImm :=
  ⟨⟨_, rfl⟩, by decide, rfl, rfl, rfl, rfl, rfl, rfl, by decide⟩

/-- MemoryChangesOnlyWhereStored: a call that stores, at the last address, and one that does not. -/
theorem witness_frame_store :
    let s := { busy .operate true [] with accessAddress := 0xFFFF, a := 0x42 }
    (Instr.sta .abs).wf = true ∧ Memory.wf s.mem = true ∧ (∃ t, exec (.sta .abs) s = .next t) ∧
    stores (.sta .abs) s = some (0xFFFF, 0x42) := ⟨rfl, rfl, ⟨_, rfl⟩, rfl⟩

theorem witness_frame_no_store :
    let s := busy .operate true []
    (Instr.lda .abs).wf = true ∧ Memory.wf s.mem = true ∧ (∃ t, exec (.lda .abs) s = .next t) ∧
    stores (.lda .abs) s = none := ⟨rfl, rfl, ⟨_, rfl⟩, rfl⟩

/-- BusAccessesFollowSchedule, OneBusAccessPerStep, OnlyDbgAndTrapsEmitOrHalt: a call, and a step, that answers a next
state. -/
theorem witness_bus : (Instr.rts).wf = true ∧ (∃ t, exec .rts (busy .c1 false []) = .next t) := ⟨rfl, ⟨_, rfl⟩⟩

theorem witness_one_access : ∃ t, step (busy .idle false []) = .next t := ⟨_, rfl⟩

/-- MalformedPhaseIsStuck: a phase with no part, and found_address against the phase. -/
theorem witness_malformed_phase :
    (Instr.lda .zp).wf = true ∧ (busy .c2 false []).phase ≠ .idle ∧
    (busy .c2 false []).phase ∉ busyPhases (.lda .zp) := by decide

theorem witness_malformed_address :
    operandMode (.lda .zp) ≠ none ∧ (busy .c1 true []).phase ≠ .idle ∧
    (busy .c1 true []).foundAddress ≠ isAddressReady (busy .c1 true []).phase := by decide

/-- StoreIsSeenByNextFetch: an executing core whose host is its memory, with this call due, at PC 0x8001. -/
def storing (opcode : Byte) (ph : Phase) (addr : Word) : State :=
  { busy ph true [] with ir := opcode, accessAddress := addr, a := 0xEA, x := 0xEA, y := 0xEA, compareOperand := 0xEA }

/-- The state's own premises, whatever the call. -/
theorem witness_storing (opcode : Byte) (ph : Phase) (addr : Word) :
    Executing (storing opcode ph addr) ∧ Memory.wf (storing opcode ph addr).mem = true ∧
    (storing opcode ph addr).answers = [] ∧ (storing opcode ph addr).foundAddress = true :=
  ⟨⟨rfl, rfl, rfl⟩, rfl, rfl, rfl⟩

/-- A store and a write-back to the address of the next opcode, and to that of its operand; pushes; both parts of JSR. -/
theorem witness_store_seen :
    stores (decodeOpcode 0x8D) (storing 0x8D .operate 0x8001) = some (0x8001, 0xEA) ∧
    stores (decodeOpcode 0x8E) (storing 0x8E .operate 0x8002) = some (0x8002, 0xEA) ∧
    stores (decodeOpcode 0x8C) (storing 0x8C .operate 0x8001) = some (0x8001, 0xEA) ∧
    stores (decodeOpcode 0x0E) (storing 0x0E .writeback2 0x8001) = some (0x8001, 0xEA) ∧
    stores (decodeOpcode 0x2E) (storing 0x2E .writeback2 0x8002) = some (0x8002, 0xEA) ∧
    stores (decodeOpcode 0x08) (storing 0x08 .c1 0x0000) = some (0x01FD, 0x30) ∧
    stores (decodeOpcode 0x48) (storing 0x48 .c1 0x0000) = some (0x01FD, 0xEA) ∧
    stores (decodeOpcode 0x20) (storing 0x20 .c3 0x1234) = some (0x01FD, 0x80) ∧
    stores (decodeOpcode 0x20) (storing 0x20 .c4 0x01FD) = some (0x01FD, 0x00) := by decide

/-- Both clauses about the next fetch: PC at the stored address, and one below it; a JSR that jumps to its own push. -/
theorem witness_store_at_pc :
    (∃ t, step (storing 0x8D .operate 0x8001) = .next t ∧ t.phase = .idle ∧ t.pc = 0x8001) ∧
    (∃ t, step (storing 0x2E .writeback2 0x8002) = .next t ∧ t.phase = .idle ∧ t.pc + 1 = 0x8002) ∧
    (∃ t, step (storing 0x20 .c4 0x01FD) = .next t ∧ t.phase = .idle ∧ t.pc = 0x01FD) :=
  ⟨⟨_, rfl, rfl, rfl⟩, ⟨_, rfl, rfl, rfl⟩, ⟨_, rfl, rfl, rfl⟩⟩

/-- HostResetEstablishesInvariant: a core of the smallest parameters. -/
theorem witness_host_reset :
    let s := State.constructed { Config.sample with resetDelay := 2, icountWidth := 16 }
    s.cfg.Wf ∧ Memory.wf s.mem = true ∧ ∃ t, hostReset true true s = .next t := ⟨by decide, rfl, _, rfl⟩

/-- A core in the middle of LDA absolute. -/
def midLoad : State :=
  { busy .c2 false [(0x8001, 0x34)] with
    ir := 0xAD, aaa := 0b101, bbb := 0b011, cc := 0b01, instructionCount := 1, accessAddress := 0x0034, pc := 0x8002 }

/-- StepKeepsInvariant, InvariantStatesAlwaysStep. -/
theorem witness_invariant : Inv midLoad where
  memWf := rfl
  cfgWf := by decide
  fields := by decide
  phaseLegal := .inr (by decide)
  found := .inr rfl
  haltedIdle := by decide
  countdown := by decide
  brkClear := by decide
  ignSet := by decide
  countBound := by decide
  bound := by decide

theorem witness_invariant_step : Inv midLoad ∧ ∃ t, step midLoad = .next t := ⟨witness_invariant, _, rfl⟩

/-- DecodeOfEncodeIsIdentity: a mode, a slot and an illegal byte. -/
theorem witness_encode :
    (Instr.ldx .absY).wf = true ∧ (Instr.unmodelledSbc 0b111).wf = true ∧ (Instr.illegal 0xFF).wf = true := by decide

/-- BranchOffsetReachesLabel: the two ends of the range. -/
theorem witness_branch_offset :
    branchOffset 0x8000 0x8081 = some 0x7F ∧ branchOffset 0x8000 0x7F82 = some 0x80 := by decide

/-- A core about to fetch this opcode at 0x8000, with these bytes after it. -/
def atOpcode (opcode b1 b2 : Byte) : State :=
  { State.reset with resetDelay := 0, pc := 0x8000, mem := [(0x8000, opcode), (0x8001, b1), (0x8002, b2)] }

/-- ResolverComputesEffectiveAddress, call by call: a mode at each of its cycles, no address found yet. -/
theorem witness_resolver_calls :
    operandMode (.lda .zp) = some .zp ∧ operandMode (.lda .abs) = some .abs ∧ operandMode (.lda .absY) = some .absY ∧
    operandMode (.lda .izx) = some .izx ∧
    ((busy .c1 false []).phase = .c1 ∧ (busy .c1 false []).foundAddress = false) ∧
    ((busy .c2 false []).phase = .c2 ∧ (busy .c2 false []).foundAddress = false) ∧
    ((busy .c3 false []).phase = .c3 ∧ (busy .c3 false []).foundAddress = false) := by decide

/-- ResolverComputesEffectiveAddress, whole; ReadInstructionsEndToEnd. -/
theorem witness_read :
    let s := atOpcode 0xA1 0xFE 0x99
    (Instr.lda .izx).wf = true ∧ operandMode (.lda .izx) = some .izx ∧ Mode.izx ≠ .imm ∧ AtInstr (.lda .izx) s ∧
    readResult (.lda .izx) (readByte s.mem (effectiveAddress .izx { s with pc := s.pc + 1 }).toNat) s =
      some (0x00, 0x00, 0x00, 0x22) := ⟨rfl, rfl, by decide, ⟨⟨rfl, rfl, rfl⟩, rfl, rfl, rfl⟩, by decide⟩

theorem witness_read_imm :
    let s := atOpcode 0x69 0x50 0x99
    (Instr.adc .imm).wf = true ∧ operandMode (.adc .imm) = some .imm ∧ AtInstr (.adc .imm) s ∧
    readResult (.adc .imm) (readByte s.mem (effectiveAddress .imm { s with pc := s.pc + 1 }).toNat) s =
      some (0x50, 0x00, 0x00, 0x20) := ⟨rfl, rfl, ⟨⟨rfl, rfl, rfl⟩, rfl, rfl, rfl⟩, by decide⟩

/-- MemoryWritersEndToEnd: a store and a shift. -/
theorem witness_store :
    let s := atOpcode 0x99 0xFF 0xFF
    (Instr.sta .absY).wf = true ∧ operandMode (.sta .absY) = some .absY ∧ AtInstr (.sta .absY) s ∧
    storedRegister (.sta .absY) s = some 0x00 := ⟨rfl, rfl, ⟨⟨rfl, rfl, rfl⟩, rfl, rfl, rfl⟩, rfl⟩

theorem witness_shift :
    let s := atOpcode 0x2E 0x01 0x80
    (Instr.rol .abs).wf = true ∧ operandMode (.rol .abs) = some .abs ∧ AtInstr (.rol .abs) s ∧
    shiftResult (.rol .abs) (readByte s.mem (effectiveAddress .abs { s with pc := s.pc + 1 }).toNat) s.p =
      some (0x02, 0x20) := ⟨rfl, rfl, ⟨⟨rfl, rfl, rfl⟩, rfl, rfl, rfl⟩, by decide⟩

/-- BranchesEndToEnd: not taken, taken within the page, taken across it. -/
theorem witness_branch_not_taken :
    AtInstr .beq (atOpcode 0xF0 0x04 0x00) ∧ branchTaken .beq (atOpcode 0xF0 0x04 0x00).p = some false :=
  ⟨⟨⟨rfl, rfl, rfl⟩, rfl, rfl, rfl⟩, rfl⟩

theorem witness_branch_taken :
    let s := atOpcode 0xD0 0x7F 0x00
    let far := atOpcode 0xD0 0x80 0x00
    AtInstr .bne s ∧ branchTaken .bne s.p = some true ∧ highByte (0x8002 + (0x7F#8).signExtend 16) = highByte 0x8002 ∧
    AtInstr .bne far ∧ branchTaken .bne far.p = some true ∧
    highByte (0x8002 + (0x80#8).signExtend 16) ≠ highByte 0x8002 :=
  ⟨⟨⟨rfl, rfl, rfl⟩, rfl, rfl, rfl⟩, rfl, by decide, ⟨⟨rfl, rfl, rfl⟩, rfl, rfl, rfl⟩, rfl, by decide⟩

/-- JsrThenRtsReturns: program P3's call. -/
theorem witness_jsr_rts :
    let s := { atOpcode 0x20 0x10 0x80 with
      mem := [(0x8000, 0x20), (0x8001, 0x10), (0x8002, 0x80), (0x8010, 0x60)] }
    let target := mkWord (readByte s.mem (s.pc + 2).toNat) (readByte s.mem (s.pc + 1).toNat)
    AtInstr .jsr s ∧ Memory.wf s.mem = true ∧ readByte s.mem target.toNat = encode .rts ∧
    target ≠ stackAddr s.sp ∧ target ≠ stackAddr (s.sp - 1) :=
  ⟨⟨⟨rfl, rfl, rfl⟩, rfl, rfl, rfl⟩, by decide, by decide, by decide, by decide⟩

/-- JumpsEndToEnd: each jump. -/
theorem witness_jumps :
    AtInstr .jmpAbs (atOpcode 0x4C 0x34 0x12) ∧ AtInstr .jmpInd (atOpcode 0x6C 0xFF 0x10) ∧
    AtInstr .jsr (atOpcode 0x20 0x10 0x80) :=
  ⟨⟨⟨rfl, rfl, rfl⟩, rfl, rfl, rfl⟩, ⟨⟨rfl, rfl, rfl⟩, rfl, rfl, rfl⟩, ⟨⟨rfl, rfl, rfl⟩, rfl, rfl, rfl⟩⟩

/-- HaltsEndToEnd: both fault states. -/
theorem witness_halts :
    (Instr.brk = .brk ∧ AtInstr .brk (atOpcode 0x00 0x11 0x22)) ∧
    ((∃ opcode, Instr.illegal 0xFF = .illegal opcode ∧ (Instr.illegal 0xFF).wf = true) ∧
      AtInstr (.illegal 0xFF) (atOpcode 0xFF 0x11 0x22)) :=
  ⟨⟨rfl, ⟨rfl, rfl, rfl⟩, rfl, rfl, rfl⟩, ⟨0xFF, rfl, by decide⟩, ⟨rfl, rfl, rfl⟩, rfl, rfl, rfl⟩

/-- InstructionTakesItsCalls. -/
theorem witness_calls :
    let s := atOpcode 0x6C 0xFF 0x10
    (Instr.jmpInd).wf = true ∧ isBranch .jmpInd = false ∧ Executing s ∧ s.phase = .idle ∧
    busAnswer s s.pc = encode .jmpInd ∧ s.cfg.unmodelled ≠ .hang ∧ 0 < 5 ∧ 5 < Instr.jmpInd.calls :=
  ⟨rfl, rfl, ⟨rfl, rfl, rfl⟩, rfl, rfl, by decide, by decide, by decide⟩

end Sys2Proof.Tests
end

section
/-! PROOFS. What a call can do to the diagnostic channel and to is_running (spec/00_scope.md R9, spec/10_state.md R43,
spec/60_exceptions.md R300 and R316): every part of every handler is quiet but three, which are named. -/

namespace Sys2Proof.Proofs

open Sys2Proof.Machine Sys2Proof.Laws

/-- From `s` to `t` nothing was emitted (R9) and the core neither halted nor started (R43). -/
def Quiet (s t : State) : Prop := t.events = s.events ∧ t.isRunning = s.isRunning

/-- The instructions whose execute step is the illegal-opcode trap: the illegal opcodes (R259), and the unmodelled-mode
opcodes under UNMODELLED_MODE_POLICY = halt (R150). -/
def TakesIllegalTrap (i : Instr) (s : State) : Prop :=
  (∃ opcode, i = .illegal opcode) ∨ (isUnmodelled i = true ∧ s.cfg.unmodelled = .halt)

variable {i : Instr} {s t : State} {m : Mode}

theorem resolve_quiet (h : resolve m s = some t) : Quiet s t := by
  rcases resolve_cases h with ⟨-, -, rfl⟩ | ⟨-, -, rfl⟩ | ⟨-, -, rfl⟩ | ⟨-, -, rfl⟩ | ⟨-, -, rfl⟩ | ⟨-, -, rfl⟩ |
    ⟨-, -, rfl⟩ | ⟨-, -, rfl⟩
  all_goals exact ⟨rfl, rfl⟩

/-- The computation of a read-class instruction writes registers and flags only. -/
theorem readOp_quiet {op : Byte → State → State} (h : readOp i = some (m, op)) (v : Byte) (s : State) :
    Quiet s (op v s) := by
  cases i <;> simp only [readOp, Option.some.injEq, Prod.mk.injEq, reduceCtorEq] at h
  all_goals
    obtain ⟨-, rfl⟩ := h
    exact ⟨rfl, rfl⟩

/-- Of the 2-call instructions that do not halt, DBG alone emits. -/
theorem oneCallOp_quiet {f : State → State} (h : oneCallOp i = some f) (hi : i ≠ .dbg) (s : State) : Quiet s (f s) := by
  cases i <;> simp only [oneCallOp, Option.some.injEq, reduceCtorEq] at h
  case dbg => exact absurd rfl hi
  all_goals
    subst h
    exact ⟨rfl, rfl⟩

/-- A call is quiet, or it is the execute step of DBG (R257), of BRK (R258), or of the illegal-opcode trap (R259). -/
theorem exec_quiet_or_trace_or_halt (h : exec i s = .next t) :
    Quiet s t ∨
    (i = .dbg ∧ s.phase = .c1 ∧ t = done (emit (traceEvent s) s)) ∨
    (i = .brk ∧ s.phase = .c1 ∧ t = halt s) ∨
    (TakesIllegalTrap i s ∧ s.phase = .c1 ∧ t = trapIllegal s) := by
  cases exec_effect h with
  | resolving m t hi hf hr hm => exact .inl (resolve_quiet hr)
  | read m op hi hp hf => exact .inl (readOp_quiet hi _ (latchOperand s))
  | readImm op u hi hp hf hu =>
    subst hu
    exact .inl (readOp_quiet hi _ (latchOperand _))
  | storeImm reg u hi hp hu | rmwImm shift flags u hi hp hu =>
    subst hu
    exact .inl ⟨rfl, rfl⟩
  | oneCall f hi hp =>
    by_cases hd : i = .dbg
    · subst hd
      obtain rfl := Option.some.inj hi
      exact .inr (.inl ⟨rfl, hp, rfl⟩)
    · exact .inl (oneCallOp_quiet hi hd s)
  | halting f hi hp =>
    cases i <;> simp only [haltOp, Option.some.injEq, reduceCtorEq] at hi
    case brk => exact .inr (.inr (.inl ⟨rfl, hp, hi ▸ rfl⟩))
    case illegal opcode => exact .inr (.inr (.inr ⟨.inl ⟨opcode, rfl⟩, hp, hi ▸ rfl⟩))
  | unmodelledHalt hi hp hk => exact .inr (.inr (.inr ⟨.inr ⟨hi, hk⟩, hp, rfl⟩))
  | _ => exact .inl ⟨rfl, rfl⟩

/-- Settles O42: of the three calls that are not quiet, DBG's emits the trace and goes on, BRK's halts in silence, and
the illegal-opcode trap does both. -/
theorem onlyDbgAndTrapsEmitOrHalt : Obligations.OnlyDbgAndTrapsEmitOrHalt := by
  unfold Obligations.OnlyDbgAndTrapsEmitOrHalt
  intro i s t h traps
  rcases exec_quiet_or_trace_or_halt h with ⟨he, hr⟩ | ⟨hi, hp, rfl⟩ | ⟨hi, hp, rfl⟩ | ⟨ht, hp, rfl⟩
  · exact ⟨.inl he, .inl hr⟩
  · exact ⟨.inr (.inl ⟨hi, hp, rfl⟩), .inl rfl⟩
  · exact ⟨.inl rfl, .inr ⟨rfl, hp, .inl hi⟩⟩
  · exact ⟨.inr (.inr ⟨ht, hp, rfl⟩), .inr ⟨rfl, hp, .inr ht⟩⟩

end Sys2Proof.Proofs
end

section
/-! PROOFS. The frame of a call (spec/10_state.md R21 to R23, R29, R31, R32, R35 to R41, R45): one structure says what a
call leaves as it was, and `exec_frame` proves it over the effects of a call, naming in each case only what that case
writes. The frames of the registers, the flags, SP, the fetched fields and the scratch fields are read off it. -/

namespace Sys2Proof.Proofs

open Sys2Proof.Machine Sys2Proof.Laws Sys2Proof.Claims

variable {i : Instr} {s t : State} {m : Mode} {f : Flag}

/-! ## The flags each flag function leaves alone -/

theorem getFlag_setNZ (hz : f ≠ .zer) (hn : f ≠ .neg) (r p : Byte) : getFlag f (setNZ r p) = getFlag f p := by
  simp [setNZ, getFlag_setFlag, hz, hn]

theorem getFlag_compareFlags (hn : f ≠ .neg) (hz : f ≠ .zer) (hc : f ≠ .car) (r v p : Byte) :
    getFlag f (compareFlags r v p) = getFlag f p := by
  simp [compareFlags, getFlag_setFlag, hz, hn, hc]

theorem getFlag_add8Flags (hn : f ≠ .neg) (ho : f ≠ .ovr) (hz : f ≠ .zer) (hc : f ≠ .car) (a v p : Byte) :
    getFlag f (add8Flags a v p) = getFlag f p := by
  simp [add8Flags, getFlag_setNZ, getFlag_setFlag, hz, hn, ho, hc]

theorem getFlag_asl8Flags (hn : f ≠ .neg) (hz : f ≠ .zer) (hc : f ≠ .car) (v p : Byte) :
    getFlag f (asl8Flags v p) = getFlag f p := by
  simp [asl8Flags, getFlag_setNZ, getFlag_setFlag, hz, hn, hc]

theorem getFlag_rol8Flags (hn : f ≠ .neg) (hz : f ≠ .zer) (hc : f ≠ .car) (v p : Byte) :
    getFlag f (rol8Flags v p) = getFlag f p := by
  simp [rol8Flags, getFlag_setNZ, getFlag_setFlag, hz, hn, hc]

theorem getFlag_bitTestFlags (hn : f ≠ .neg) (ho : f ≠ .ovr) (hz : f ≠ .zer) (a v p : Byte) :
    getFlag f (bitTestFlags a v p) = getFlag f p := by
  simp [bitTestFlags, getFlag_setFlag, hz, hn, ho]

/-- P is its eight flags (R24). -/
theorem p_eq_of_getFlag {p q : Byte} (h : ∀ f, getFlag f p = getFlag f q) : p = q := by
  refine BitVec.eq_of_getLsbD_eq fun n hn => ?_
  match n, hn with
  | 0, _ => exact h .car
  | 1, _ => exact h .zer
  | 2, _ => exact h .ire
  | 3, _ => exact h .dec
  | 4, _ => exact h .brk
  | 5, _ => exact h .ign
  | 6, _ => exact h .ovr
  | 7, _ => exact h .neg

/-! ## The frame -/

/-- What a call of `i` from `s` to `t` leaves as it was, by the lists of the spec's rules. A field whose proof is not
given is one the call does not write. -/
structure Frame (i : Instr) (s t : State) : Prop where
  a : writesA i = false → t.a = s.a := by intros; rfl
  x : writesX i = false → t.x = s.x := by intros; rfl
  y : writesY i = false → t.y = s.y := by intros; rfl
  flags : ∀ f, writesFlag f i = false → getFlag f t.p = getFlag f s.p := by intros; rfl
  sp : movesSp i = false → t.sp = s.sp := by intros; rfl
  spByOne : t.sp = s.sp ∨ t.sp = s.sp - 1 ∨ t.sp = s.sp + 1 := by exact .inl rfl
  latched : s.phase ≠ .idle →
    t.ir = s.ir ∧ t.aaa = s.aaa ∧ t.bbb = s.bbb ∧ t.cc = s.cc ∧ t.instructionCount = s.instructionCount := by
      intros; exact ⟨rfl, rfl, rfl, rfl, rfl⟩
  fixed : t.resetDelay = s.resetDelay ∧ t.cfg = s.cfg ∧ t.readBound = s.readBound ∧ t.writeBound = s.writeBound := by
    exact ⟨rfl, rfl, rfl, rfl⟩
  accessAddress : writesAccessAddress i = false → t.accessAddress = s.accessAddress := by intros; rfl
  indirectAddress : writesIndirectAddress i = false → t.indirectAddress = s.indirectAddress := by intros; rfl
  oldPc : writesOldPc i = false → t.oldPc = s.oldPc := by intros; rfl
  offset : isBranch i = false → t.offset = s.offset := by intros; rfl
  compareOperand : latchesOperand i = false → t.compareOperand = s.compareOperand := by intros; rfl
  foundAddress : s.phase ≠ .idle → operandMode i = none → i ≠ .nopStaImm → t.foundAddress = s.foundAddress := by
    intros; rfl

/-! ## What the classes of instructions are listed to write -/

theorem writesAccessAddress_of_operandMode (h : operandMode i = some m) : writesAccessAddress i = true := by
  cases i <;> simp_all [operandMode, writesAccessAddress]

theorem writesIndirectAddress_of_izx (h : operandMode i = some .izx) : writesIndirectAddress i = true := by
  cases i <;> simp_all [operandMode, writesIndirectAddress]

theorem latchesOperand_of_readOp {op : Byte → State → State} (h : readOp i = some (m, op)) :
    latchesOperand i = true := by
  cases i <;> simp_all [readOp, latchesOperand, operandMode]

theorem latchesOperand_of_rmwOp {shift flags : Byte → Byte → Byte} (h : rmwOp i = some (m, shift, flags)) :
    latchesOperand i = true := by
  cases i <;> simp_all [rmwOp, latchesOperand, operandMode]

theorem isBranch_of_branchOp {taken : State → Bool} (h : branchOp i = some taken) : isBranch i = true := by
  cases i <;> simp_all [branchOp, isBranch]

theorem writesOldPc_of_isBranch (h : isBranch i = true) : writesOldPc i = true := by
  cases i <;> simp_all [isBranch, writesOldPc]

/-! ## The parts of a call -/

theorem resolve_frame (hi : operandMode i = some m) (h : resolve m s = some t) : Frame i s t := by
  have hacc : writesAccessAddress i = true := writesAccessAddress_of_operandMode hi
  rcases resolve_cases h with ⟨-, -, rfl⟩ | ⟨-, -, rfl⟩ | ⟨-, -, rfl⟩ | ⟨-, -, rfl⟩ | ⟨-, -, rfl⟩ | ⟨rfl, -, rfl⟩ |
    ⟨-, -, rfl⟩ | ⟨-, -, rfl⟩
  case inr.inr.inr.inr.inr.inl =>
    have hind : writesIndirectAddress i = true := writesIndirectAddress_of_izx hi
    exact { indirectAddress := by simp [hind] }
  all_goals exact { accessAddress := by simp [hacc], foundAddress := by simp [hi] }

/-- The computation of a read-class instruction writes A, X, Y and P only, and these as listed. -/
theorem readOp_writes {op : Byte → State → State} (h : readOp i = some (m, op)) (v : Byte) (s : State) :
    ∃ a x y p : Byte, op v s = { s with a := a, x := x, y := y, p := p } ∧
      (writesA i = false → a = s.a) ∧ (writesX i = false → x = s.x) ∧ (writesY i = false → y = s.y) ∧
      ∀ f, writesFlag f i = false → getFlag f p = getFlag f s.p := by
  cases i <;> simp only [readOp, Option.some.injEq, Prod.mk.injEq, reduceCtorEq] at h
  all_goals
    obtain ⟨-, rfl⟩ := h
    refine ⟨_, _, _, _, rfl, by simp [writesA], by simp [writesX], by simp [writesY], fun f hf => ?_⟩
    simp_all [writesFlag, writesNZ, getFlag_setNZ, getFlag_compareFlags, getFlag_add8Flags, sub8Flags,
      getFlag_bitTestFlags]

/-- The Operate part of a read-class instruction, at the address `u` holds. -/
theorem read_frame {op : Byte → State → State} {u : State} (hi : readOp i = some (m, op)) (hu : Frame i s u) :
    Frame i s (done (op (operand u) (latchOperand u))) := by
  obtain ⟨a, x, y, p, e, ha, hx, hy, hp⟩ := readOp_writes hi (operand u) (latchOperand u)
  have hlatch : latchesOperand i = true := latchesOperand_of_readOp hi
  rw [e]
  exact { hu with
    a := fun hw => (ha hw).trans (hu.a hw)
    x := fun hw => (hx hw).trans (hu.x hw)
    y := fun hw => (hy hw).trans (hu.y hw)
    flags := fun f hw => (hp f hw).trans (hu.flags f hw)
    compareOperand := by simp [hlatch] }

theorem getFlag_rmwFlags {shift flags : Byte → Byte → Byte} (h : rmwOp i = some (m, shift, flags)) (v p : Byte)
    (hf : writesFlag f i = false) : getFlag f (flags v p) = getFlag f p := by
  cases i <;> simp only [rmwOp, Option.some.injEq, Prod.mk.injEq, reduceCtorEq] at h
  all_goals
    obtain ⟨-, -, rfl⟩ := h
    simp_all [writesFlag, getFlag_asl8Flags, getFlag_rol8Flags]

theorem oneCallOp_frame {op : State → State} (h : oneCallOp i = some op) (s : State) : Frame i s (done (op s)) := by
  cases i <;> simp only [oneCallOp, Option.some.injEq, reduceCtorEq] at h <;> subst h
  case nopStaImm => exact { accessAddress := nofun, foundAddress := fun _ _ hi => absurd rfl hi }
  case php | pha => exact { sp := nofun, spByOne := .inr (.inl rfl) }
  case plp => exact { sp := nofun, spByOne := .inr (.inr rfl), flags := nofun }
  case pla =>
    exact {
      a := nofun
      sp := nofun
      spByOne := .inr (.inr rfl)
      flags := fun f hf => by simp_all [writesFlag, writesNZ, getFlag_setNZ] }
  case nop | dbg => exact {}
  case clc | sec | cli | sei | clv | cld | sed =>
    exact { flags := fun f hf => by simp_all [writesFlag, getFlag_setFlag] }
  case aslA | rolA =>
    exact { a := nofun, flags := fun f hf => by simp_all [writesFlag, getFlag_asl8Flags, getFlag_rol8Flags] }
  case txa | tya | incA | decA =>
    exact { a := nofun, flags := fun f hf => by simp_all [writesFlag, writesNZ, getFlag_setNZ] }
  case tax | inx | dex =>
    exact { x := nofun, flags := fun f hf => by simp_all [writesFlag, writesNZ, getFlag_setNZ] }
  case tay | iny | dey =>
    exact { y := nofun, flags := fun f hf => by simp_all [writesFlag, writesNZ, getFlag_setNZ] }

/-- Immediate mode's address is PC, with nothing else yet done (R107). -/
theorem immAddress_frame {u : State} (hi : operandMode i = some m)
    (hu : u = { addressReady s.pc s with pc := s.pc + 1 }) : Frame i s u := by
  subst hu
  have hacc : writesAccessAddress i = true := writesAccessAddress_of_operandMode hi
  exact { accessAddress := by simp [hacc], foundAddress := by simp [hi] }

/-- Every call that answers a next state keeps what the rules do not list for its instruction. -/
theorem exec_frame (h : exec i s = .next t) : Frame i s t := by
  cases exec_effect h with
  | fetch hp => exact { latched := fun h => absurd hp h, foundAddress := fun h => absurd hp h }
  | resolving m t hi hf hr hm => exact resolve_frame hi hr
  | read m op hi hp hf => exact read_frame hi {}
  | readImm op u hi hp hf hu => exact read_frame hi (immAddress_frame (operandMode_of_readOp hi) hu)
  | storeImm reg u hi hp hu => exact { immAddress_frame (operandMode_of_storeOp hi) hu with }
  | rmwImm shift flags u hi hp hu =>
    exact { immAddress_frame (operandMode_of_rmwOp hi) hu with
      compareOperand := by simp [latchesOperand_of_rmwOp hi] }
  | rmwRead m shift flags hi hp hf => exact { compareOperand := by simp [latchesOperand_of_rmwOp hi] }
  | rmwCompute m shift flags hi hp hf =>
    exact {
      compareOperand := by simp [latchesOperand_of_rmwOp hi]
      flags := fun f => getFlag_rmwFlags hi s.compareOperand s.p }
  | oneCall op hi hp => exact oneCallOp_frame hi s
  | halting trap hi hp =>
    cases i <;> simp only [haltOp, Option.some.injEq, reduceCtorEq] at hi <;> subst hi <;> exact {}
  | branchTaken taken hi hp hk | branchNotTaken taken hi hp hk =>
    have hbranch : isBranch i = true := isBranch_of_branchOp hi
    exact { oldPc := by simp [writesOldPc_of_isBranch hbranch], offset := by simp [hbranch] }
  | jsr1 hi hp | jsr2 hi hp | rts1 hi hp | jmpAbs1 hi hp | jmpAbs2 hi hp =>
    subst hi
    exact { accessAddress := nofun }
  | jsr3 hi hp | jsr4 hi hp =>
    subst hi
    exact { sp := nofun, spByOne := .inr (.inl rfl), oldPc := nofun }
  | rts2 hi hp | rts3 hi hp =>
    subst hi
    exact { sp := nofun, spByOne := .inr (.inr rfl), accessAddress := nofun }
  | jmpInd1 hi hp | jmpInd2 hi hp | jmpInd3 hi hp | jmpInd4 hi hp | jmpInd5 hi hp =>
    subst hi
    exact { accessAddress := nofun, indirectAddress := nofun }
  | _ => exact {}

/-! ## The frames of the rules -/

/-- Settles O34, from the frame of a call. -/
theorem generalRegistersWrittenOnlyByListed : Obligations.GeneralRegistersWrittenOnlyByListed := by
  unfold Obligations.GeneralRegistersWrittenOnlyByListed
  intro i s t h
  have frame := exec_frame h
  exact ⟨frame.a, frame.x, frame.y⟩

/-- Settles O36, from the frame of a call. -/
theorem stackPointerMovedOnlyByStackInstructions : Obligations.StackPointerMovedOnlyByStackInstructions := by
  unfold Obligations.StackPointerMovedOnlyByStackInstructions
  intro i s t h
  have frame := exec_frame h
  exact ⟨frame.sp, frame.spByOne⟩

/-- Settles O37, from the frame of a call. -/
theorem fetchFieldsWrittenOnlyByFetch : Obligations.FetchFieldsWrittenOnlyByFetch := by
  unfold Obligations.FetchFieldsWrittenOnlyByFetch
  intro i s t h
  have frame := exec_frame h
  exact ⟨frame.latched, frame.fixed⟩

/-- Settles O38, from the frame of a call. -/
theorem scratchFieldsWrittenOnlyByListed : Obligations.ScratchFieldsWrittenOnlyByListed := by
  unfold Obligations.ScratchFieldsWrittenOnlyByListed
  intro i s t h
  have frame := exec_frame h
  exact ⟨frame.accessAddress, frame.indirectAddress, frame.oldPc, frame.offset, frame.compareOperand,
    frame.foundAddress⟩

/-! ## BRK and IGN, which PLP alone writes -/

theorem eq_plp_of_writesFlag (hf : f = .brk ∨ f = .ign) (h : writesFlag f i = true) : i = .plp := by
  rcases hf with rfl | rfl <;> cases i <;> simp_all [writesFlag]

/-- A call leaves BRK and IGN, or is PLP's, which loads all of P (R202). -/
theorem exec_brk_ign_kept_or_plp (h : exec i s = .next t) :
    (getFlag .brk t.p = getFlag .brk s.p ∧ getFlag .ign t.p = getFlag .ign s.p) ∨
    t.p = plpFlags s.cfg.plpIgn (pullByte s) := by
  by_cases hi : i = .plp
  · subst hi
    simp only [exec, execPlp] at h
    rcases oneCallInstr_cases h with ⟨-, rfl⟩ | ⟨-, rfl⟩
    · exact .inl ⟨rfl, rfl⟩
    · exact .inr rfl
  · have kept (f : Flag) (hf : f = .brk ∨ f = .ign) : getFlag f t.p = getFlag f s.p :=
      (exec_frame h).flags f (Bool.eq_false_iff.2 fun hw => hi (eq_plp_of_writesFlag hf hw))
    exact .inl ⟨kept .brk (.inl rfl), kept .ign (.inr rfl)⟩

theorem getFlag_brk_plpFlags (policy : PlpIgnPolicy) (v : Byte) : getFlag .brk (plpFlags policy v) = false := by
  cases policy <;> simp [plpFlags, getFlag, flagBit]

theorem getFlag_ign_plpFlags (v : Byte) : getFlag .ign (plpFlags .forceOne v) = true := by
  simp [plpFlags, getFlag, flagBit]

/-- R26: BRK is never set in P. -/
theorem exec_brkClear (h : exec i s = .next t) (hs : getFlag .brk s.p = false) : getFlag .brk t.p = false := by
  rcases exec_brk_ign_kept_or_plp h with ⟨hb, -⟩ | hp
  · rw [hb, hs]
  · rw [hp, getFlag_brk_plpFlags]

/-- R25: under the decided PLP policy IGN stays set. -/
theorem exec_ignSet (h : exec i s = .next t) (hk : s.cfg.plpIgn = .forceOne) (hs : getFlag .ign s.p = true) :
    getFlag .ign t.p = true := by
  rcases exec_brk_ign_kept_or_plp h with ⟨-, hi⟩ | hp
  · rw [hi, hs]
  · rw [hp, hk, getFlag_ign_plpFlags]

/-- Settles O35, from the frame of a call; P is unchanged where all its flags are, and BRK's own rule is that PLP
clears it. -/
theorem flagsWrittenOnlyByListed : Obligations.FlagsWrittenOnlyByListed := by
  unfold Obligations.FlagsWrittenOnlyByListed
  intro i s t h
  have frame := exec_frame h
  exact ⟨frame.flags, fun hw => p_eq_of_getFlag fun f => frame.flags f (hw f), exec_brkClear h⟩

end Sys2Proof.Proofs
end

section
/-! PROOFS. The phases of an instruction (spec/10_state.md R33, R44; spec/93_implementation_defined.md I4): a call is
stuck where the instruction has no part for the phase or the address it holds, it answers where the instruction has
one, and then it leaves the phase of a part to come. -/

namespace Sys2Proof.Proofs

open Sys2Proof.Machine Sys2Proof.Laws

variable {i : Instr} {s t : State} {m : Mode}

/-- Between two instructions, or in a phase the instruction has a part for, with found_address as that phase has it
(R33, R44 (b)). -/
def InPart (i : Instr) (s : State) : Prop :=
  s.phase = .idle ∨ (s.phase ∈ busyPhases i ∧ s.foundAddress = isAddressReady s.phase)

/-! ## The phases of each class of instructions, and whether it uses the resolver -/

theorem busyPhases_of_readOp {op : Byte → State → State} (h : readOp i = some (m, op)) :
    busyPhases i = accessPhases m := by
  cases i <;> simp_all [readOp, busyPhases]

theorem busyPhases_of_storeOp {reg : State → Byte} (h : storeOp i = some (m, reg)) :
    busyPhases i = accessPhases m := by
  cases i <;> simp_all [storeOp, busyPhases]

theorem busyPhases_of_rmwOp {shift flags : Byte → Byte → Byte} (h : rmwOp i = some (m, shift, flags)) :
    busyPhases i = rmwPhases m := by
  cases i <;> simp_all [rmwOp, busyPhases]

theorem phases_of_oneCallOp {op : State → State} (h : oneCallOp i = some op) :
    busyPhases i = [.c1] ∧ operandMode i = none := by
  cases i <;> simp_all [oneCallOp, busyPhases, operandMode]

theorem phases_of_haltOp {trap : State → State} (h : haltOp i = some trap) :
    busyPhases i = [.c1] ∧ operandMode i = none := by
  cases i <;> simp_all [haltOp, busyPhases, operandMode]

theorem phases_of_unmodelled (h : isUnmodelled i = true) : busyPhases i = [.c1] ∧ operandMode i = none := by
  cases i <;> simp_all [isUnmodelled, busyPhases, operandMode]

theorem phases_of_branchOp {taken : State → Bool} (h : branchOp i = some taken) :
    busyPhases i = [.c1, .c2, .c3] ∧ operandMode i = none := by
  cases i <;> simp_all [branchOp, busyPhases, operandMode]

/-- The resolver's phases, and Operate, are phases of every instruction that uses it. -/
theorem mem_busyPhases_of_operandMode {c : Phase} (hi : operandMode i = some m)
    (hc : c ∈ resolvePhases m ∨ c = .operate) : c ∈ busyPhases i := by
  have h : busyPhases i = accessPhases m ∨ busyPhases i = rmwPhases m := by
    cases i <;> simp_all [operandMode, busyPhases]
  rcases h with h | h <;> rcases hc with hc | rfl <;> simp_all [accessPhases, rmwPhases]

theorem c1_mem_resolvePhases (m : Mode) : .c1 ∈ resolvePhases m := by
  cases m <;> decide

theorem isAddressReady_of_mem_resolvePhases {c : Phase} (h : c ∈ resolvePhases m) : isAddressReady c = false := by
  cases m <;> cases c <;> simp_all [resolvePhases, isAddressReady]

/-- Every instruction has a part for the phase its fetch leaves. -/
theorem c1_mem_busyPhases (i : Instr) : .c1 ∈ busyPhases i := by
  cases hi : operandMode i with
  | some m => exact mem_busyPhases_of_operandMode hi (.inl (c1_mem_resolvePhases m))
  | none => cases i <;> simp_all [operandMode, busyPhases]

/-! ## A call that answers -/

/-- A call that answers was in a part of a well-formed instruction. -/
theorem inPart_of_exec (hw : i.wf = true) (h : exec i s = .next t) :
    s.phase = .idle ∨
    (s.phase ∈ busyPhases i ∧ (operandMode i ≠ none → s.foundAddress = isAddressReady s.phase)) := by
  cases exec_effect h with
  | fetch hp => exact .inl hp
  | resolving m t hi hf hr hm =>
    have hp : s.phase ∈ resolvePhases m := resolve_phase hr
    exact .inr ⟨mem_busyPhases_of_operandMode hi (.inl hp), fun _ => by rw [hf, isAddressReady_of_mem_resolvePhases hp]⟩
  | read m op hi hp hf =>
    exact .inr ⟨mem_busyPhases_of_operandMode (operandMode_of_readOp hi) (.inr hp), fun _ => by rw [hf, hp]; rfl⟩
  | readImm op u hi hp hf hu => exact .inr ⟨hp ▸ c1_mem_busyPhases i, fun _ => by rw [hf, hp]; rfl⟩
  | store m reg hi hp hf =>
    exact .inr ⟨mem_busyPhases_of_operandMode (operandMode_of_storeOp hi) (.inr hp), fun _ => by rw [hf, hp]; rfl⟩
  | rmwRead m shift flags hi hp hf | rmwCompute m shift flags hi hp hf | rmwWrite m shift flags hi hp hf =>
    exact .inr ⟨by simp [busyPhases_of_rmwOp hi, rmwPhases, hp], fun _ => by rw [hf, hp]; rfl⟩
  | storeImm reg u hi hp hu => exact absurd rfl (storeOp_wf hw hi)
  | rmwImm shift flags u hi hp hu => exact absurd rfl (rmwOp_wf hw hi)
  | oneCall op hi hp => exact .inr ⟨hp ▸ c1_mem_busyPhases i, fun hn => absurd (phases_of_oneCallOp hi).2 hn⟩
  | halting trap hi hp => exact .inr ⟨hp ▸ c1_mem_busyPhases i, fun hn => absurd (phases_of_haltOp hi).2 hn⟩
  | unmodelledNop hi hp hk | unmodelledHalt hi hp hk | unmodelledHang hi hp hk =>
    exact .inr ⟨hp ▸ c1_mem_busyPhases i, fun hn => absurd (phases_of_unmodelled hi).2 hn⟩
  | branchTaken taken hi hp hk | branchNotTaken taken hi hp hk | branchCross taken hi hp hk
  | branchSamePage taken hi hp hk | branchFixPage taken hi hp =>
    exact .inr ⟨by simp [phases_of_branchOp hi, hp], fun hn => absurd (phases_of_branchOp hi).2 hn⟩
  | jsr1 hi hp | jsr2 hi hp | jsr3 hi hp | jsr4 hi hp | rts1 hi hp | rts2 hi hp | rts3 hi hp | jmpAbs1 hi hp
  | jmpAbs2 hi hp | jmpInd1 hi hp | jmpInd2 hi hp | jmpInd3 hi hp | jmpInd4 hi hp | jmpInd5 hi hp =>
    subst hi
    exact .inr ⟨by simp [busyPhases, hp], fun hn => absurd rfl hn⟩

/-- A resolving step goes on to the resolver's next phase, or to Operate with the address found. -/
theorem resolve_next (hf : s.foundAddress = false) (h : resolve m s = some t) :
    (t.phase ∈ resolvePhases m ∨ t.phase = .operate) ∧ t.foundAddress = isAddressReady t.phase := by
  rcases resolve_cases h with ⟨-, -, rfl⟩ | ⟨-, -, rfl⟩ | ⟨hm, -, rfl⟩ | ⟨-, -, rfl⟩ | ⟨-, -, rfl⟩ | ⟨hm, -, rfl⟩ |
    ⟨hm, -, rfl⟩ | ⟨-, -, rfl⟩
  case inr.inr.inl => rcases hm with rfl | rfl <;> exact ⟨.inl (by simp [resolvePhases]), hf⟩
  case inr.inr.inr.inr.inr.inl | inr.inr.inr.inr.inr.inr.inl => exact ⟨.inl (by simp [hm, resolvePhases]), hf⟩
  all_goals exact ⟨.inr rfl, rfl⟩

/-- A part in the addressing range that goes on within it leaves found_address as it was. -/
theorem InPart.goes_on (hs : InPart i s) (hp : s.phase ≠ .idle) (hr : isAddressReady s.phase = false)
    (hf : t.foundAddress = s.foundAddress) (hq : t.phase ∈ busyPhases i) (hr' : isAddressReady t.phase = false) :
    InPart i t := by
  obtain hp' | ⟨-, hfound⟩ := hs
  · exact absurd hp' hp
  · exact .inr ⟨hq, by rw [hf, hfound, hr, hr']⟩

/-- A call that answers completes the instruction, or leaves the phase of one of its parts. -/
theorem exec_keeps_inPart (h : exec i s = .next t) (hs : InPart i s) : InPart i t := by
  cases exec_effect h with
  | fetch hp => exact .inr ⟨c1_mem_busyPhases i, rfl⟩
  | resolving m t hi hf hr hm =>
    obtain ⟨hp, hf'⟩ := resolve_next hf hr
    exact .inr ⟨mem_busyPhases_of_operandMode hi hp, hf'⟩
  | rmwRead m shift flags hi hp hf | rmwCompute m shift flags hi hp hf =>
    exact .inr ⟨by simp [busyPhases_of_rmwOp hi, rmwPhases], hf⟩
  | rmwImm shift flags u hi hp hu => exact .inr ⟨by simp [busyPhases_of_rmwOp hi, rmwPhases], hu ▸ rfl⟩
  | halting trap hi hp =>
    cases i <;> simp only [haltOp, Option.some.injEq, reduceCtorEq] at hi <;> subst hi <;> exact .inl rfl
  | unmodelledHang hi hp hk => exact hs
  | branchTaken taken hi hp hk | branchCross taken hi hp hk =>
    exact hs.goes_on (by simp [hp]) (by rw [hp]; rfl) rfl (by simp [phases_of_branchOp hi]) rfl
  | jsr1 hi hp | jsr2 hi hp | jsr3 hi hp | rts1 hi hp | rts2 hi hp | jmpAbs1 hi hp | jmpInd1 hi hp | jmpInd2 hi hp
  | jmpInd3 hi hp | jmpInd4 hi hp =>
    subst hi
    exact hs.goes_on (by simp [hp]) (by rw [hp]; rfl) rfl (by simp [busyPhases]) rfl
  | _ => exact .inl rfl

/-! ## A call that does not answer -/

/-- An outcome that is a next state or the malformed addressing/cycle state. -/
def AnswersOrStuck (o : Host.Outcome State Fault Refusal) : Prop := (∃ t, o = .next t) ∨ o = stuck

theorem operateRead_answersOrStuck (op : Byte → State → State) (s : State) : AnswersOrStuck (operateRead op s) := by
  unfold operateRead
  split
  · exact .inl ⟨_, rfl⟩
  · exact .inr rfl

theorem operateStore_answersOrStuck (reg : State → Byte) (s : State) : AnswersOrStuck (operateStore reg s) := by
  unfold operateStore
  split
  · exact .inl ⟨_, rfl⟩
  · exact .inr rfl

theorem operateRmw_answersOrStuck (shift flags : Byte → Byte → Byte) (s : State) :
    AnswersOrStuck (operateRmw shift flags s) := by
  unfold operateRmw
  split
  case h_4 => exact .inr rfl
  all_goals exact .inl ⟨_, rfl⟩

theorem withOperand_answersOrStuck {operate : State → Host.Outcome State Fault Refusal}
    (ho : ∀ u, AnswersOrStuck (operate u)) (m : Mode) (s : State) : AnswersOrStuck (withOperand m operate s) := by
  unfold withOperand
  split
  · exact .inl ⟨_, rfl⟩
  iterate 3
    · split
      · exact ho s
      · exact .inr rfl
  · split
    · exact .inr rfl
    · split
      · exact .inr rfl
      · split
        · exact ho _
        · exact .inl ⟨_, rfl⟩

/-- Every call answers a next state or is stuck: it has no other fault, and no refusal. -/
theorem exec_answersOrStuck (i : Instr) (s : State) : AnswersOrStuck (exec i s) := by
  cases exec_shape i with
  | read m op hi e => exact e s ▸ withOperand_answersOrStuck (operateRead_answersOrStuck op) m s
  | store m reg hi e => exact e s ▸ withOperand_answersOrStuck (operateStore_answersOrStuck reg) m s
  | rmw m shift flags hi e => exact e s ▸ withOperand_answersOrStuck (operateRmw_answersOrStuck shift flags) m s
  | oneCall op hi e => rw [e]; unfold oneCallInstr; split <;> simp [AnswersOrStuck]
  | halting trap hi e => rw [e]; unfold haltingInstr; split <;> simp [AnswersOrStuck]
  | branch taken hi e => rw [e]; unfold branchStep; split <;> simp [AnswersOrStuck]
  | unmodelled hi e =>
    rw [e]
    unfold unmodelledStep
    split
    case h_2 => split <;> simp [AnswersOrStuck]
    all_goals simp [AnswersOrStuck]
  | jsr hi e => rw [e]; unfold execJsr; split <;> simp [AnswersOrStuck]
  | rts hi e => rw [e]; unfold execRts; split <;> simp [AnswersOrStuck]
  | jmpAbs hi e => rw [e]; unfold execJmpAbs; split <;> simp [AnswersOrStuck]
  | jmpInd hi e => rw [e]; unfold execJmpInd; split <;> simp [AnswersOrStuck]

theorem exec_eq_stuck (h : ∀ t, exec i s ≠ .next t) : exec i s = .fault .malformedPhase := by
  obtain ⟨t, ht⟩ | h' := exec_answersOrStuck i s
  · exact absurd ht (h t)
  · exact h'

/-- Settles O43: a call that answered would have been in a part of its instruction, and a call that does not answer is
stuck. -/
theorem malformedPhaseIsStuck : Obligations.MalformedPhaseIsStuck := by
  unfold Obligations.MalformedPhaseIsStuck
  intro i s hw hp
  have part (t : State) (h : exec i s = .next t) := (inPart_of_exec hw h).resolve_left hp
  refine ⟨fun hq => exec_eq_stuck fun t h => hq (part t h).1, fun hm hf => exec_eq_stuck fun t h => ?_⟩
  exact hf ((part t h).2 hm)

/-! ## A call in one of the instruction's parts -/

theorem exists_resolve_of_mem (h : s.phase ∈ resolvePhases m) : ∃ t, resolve m s = some t := by
  cases m <;> simp only [resolvePhases, List.mem_cons, List.not_mem_nil, or_false] at h
  case imm => simp [resolve, resolveImm, h]
  case zp => simp [resolve, resolveZp, h]
  case abs => rcases h with h | h <;> simp [resolve, resolveAbs, h]
  case absY => rcases h with h | h <;> simp [resolve, resolveAbsY, h]
  case izx => rcases h with h | h | h <;> simp [resolve, resolveIzx, h]

/-- A handler over the resolver answers in the resolver's phases and in those of its operate part. -/
theorem withOperand_answers {operate : State → Host.Outcome State Fault Refusal} {rest : List Phase}
    (hready : ∀ c ∈ rest, isAddressReady c = true) (hop : .operate ∈ rest)
    (ho : ∀ u : State, u.phase ∈ rest → ∃ t, operate u = .next t)
    (hp : s.phase ∈ resolvePhases m ++ rest) (hf : s.foundAddress = isAddressReady s.phase) :
    ∃ t, withOperand m operate s = .next t := by
  rcases List.mem_append.1 hp with hp | hp
  · have hf' : s.foundAddress = false := by rw [hf, isAddressReady_of_mem_resolvePhases hp]
    by_cases hm : m = .imm
    · subst hm
      rw [withOperand_imm (by simpa [resolvePhases] using hp) hf']
      exact ho _ hop
    · obtain ⟨t, ht⟩ := exists_resolve_of_mem hp
      exact ⟨t, withOperand_resolving hm hf' ht⟩
  · rw [withOperand_ready (hready _ hp) (by rw [hf, hready _ hp])]
    exact ho s hp

/-- Every instruction answers in each of its own parts. -/
theorem exec_answers_of_inPart (hs : InPart i s) : ∃ t, exec i s = .next t := by
  obtain hp | ⟨hp, hf⟩ := hs
  · exact ⟨_, exec_idle i hp⟩
  cases exec_shape i with
  | read m op hi e =>
    rw [busyPhases_of_readOp hi] at hp
    rw [e]
    refine withOperand_answers (by decide) (by decide) (fun u hu => ?_) hp hf
    simp [operateRead, List.mem_singleton.1 hu]
  | store m reg hi e =>
    rw [busyPhases_of_storeOp hi] at hp
    rw [e]
    refine withOperand_answers (by decide) (by decide) (fun u hu => ?_) hp hf
    simp [operateStore, List.mem_singleton.1 hu]
  | rmw m shift flags hi e =>
    rw [busyPhases_of_rmwOp hi] at hp
    rw [e]
    refine withOperand_answers (by decide) (by decide) (fun u hu => ?_) hp hf
    simp only [List.mem_cons, List.not_mem_nil, or_false] at hu
    rcases hu with hu | hu | hu <;> simp [operateRmw, hu]
  | oneCall op hi e =>
    rw [(phases_of_oneCallOp hi).1, List.mem_singleton] at hp
    simp [e, oneCallInstr, hp]
  | halting trap hi e =>
    rw [(phases_of_haltOp hi).1, List.mem_singleton] at hp
    simp [e, haltingInstr, hp]
  | unmodelled hi e =>
    rw [(phases_of_unmodelled hi).1, List.mem_singleton] at hp
    cases hk : s.cfg.unmodelled <;> simp [e, unmodelledStep, hp, hk]
  | branch taken hi e =>
    simp only [(phases_of_branchOp hi).1, List.mem_cons, List.not_mem_nil, or_false] at hp
    rcases hp with hp | hp | hp <;> simp [e, branchStep, hp]
  | jsr hi e =>
    simp only [hi, busyPhases, List.mem_cons, List.not_mem_nil, or_false] at hp
    rcases hp with hp | hp | hp | hp <;> simp [e, execJsr, hp]
  | rts hi e =>
    simp only [hi, busyPhases, List.mem_cons, List.not_mem_nil, or_false] at hp
    rcases hp with hp | hp | hp <;> simp [e, execRts, hp]
  | jmpAbs hi e =>
    simp only [hi, busyPhases, List.mem_cons, List.not_mem_nil, or_false] at hp
    rcases hp with hp | hp <;> simp [e, execJmpAbs, hp]
  | jmpInd hi e =>
    simp only [hi, busyPhases, List.mem_cons, List.not_mem_nil, or_false] at hp
    rcases hp with hp | hp | hp | hp | hp <;> simp [e, execJmpInd, hp]

end Sys2Proof.Proofs
end

section
/-! PROOFS. The invariant of the machine (spec/10_state.md R33, R44, spec/70_reset_and_hazards.md R331): each kind of
step keeps it, and from a state that meets it every step answers. -/

namespace Sys2Proof.Proofs

open Sys2Proof.Machine Sys2Proof.Laws

variable {i : Instr} {s t : State}

/-- The invariant's two clauses about `cycle` and found_address, as one (R33, R44 (b)). -/
theorem inPart_of_inv (hs : Inv s) : InPart (decodeOpcode s.ir) s := by
  obtain hp | hp := hs.phaseLegal
  · exact .inl hp
  · exact hs.found.imp_right fun hf => ⟨hp, hf⟩

/-- A call leaves is_running, or the core halts between instructions (R301). -/
theorem exec_isRunning_or_idle (h : exec i s = .next t) : t.isRunning = s.isRunning ∨ t.phase = .idle := by
  rcases exec_quiet_or_trace_or_halt h with ⟨-, hr⟩ | ⟨-, -, rfl⟩ | ⟨-, -, rfl⟩ | ⟨-, -, rfl⟩
  · exact .inl hr
  all_goals exact .inr rfl

/-- What the countdown writes (R331). -/
theorem resetCountdownStep_frame (s : State) : ∃ pc answers busLog, resetCountdownStep s =
    { s with pc := pc, answers := answers, busLog := busLog, resetDelay := s.resetDelay - 1 } := by
  unfold resetCountdownStep
  split
  · exact ⟨_, _, _, rfl⟩
  · split <;> exact ⟨_, _, _, rfl⟩

theorem resetCountdownStep_keeps_inv (hs : Inv s) (hd : s.resetDelay ≠ 0) : Inv (resetCountdownStep s) := by
  obtain ⟨pc, answers, busLog, e⟩ := resetCountdownStep_frame s
  rw [e]
  exact { hs with countdown := fun _ => hs.countdown hd }

theorem fetchStep_keeps_inv (hs : Inv s) (hr : s.isRunning = true) (hd : s.resetDelay = 0) : Inv (fetchStep s) where
  memWf := hs.memWf
  cfgWf := hs.cfgWf
  fields := ⟨rfl, rfl, rfl⟩
  phaseLegal := .inr (c1_mem_busyPhases _)
  found := .inr rfl
  haltedIdle hr' := absurd hr (Bool.eq_false_iff.1 hr')
  countdown hd' := absurd hd hd'
  brkClear := hs.brkClear
  ignSet := hs.ignSet
  countBound := Nat.mod_lt _ (Nat.two_pow_pos _)
  bound := hs.bound

/-- An execute step of the instruction in IR keeps the invariant. -/
theorem exec_keeps_inv (hs : Inv s) (hr : s.isRunning = true) (hd : s.resetDelay = 0) (hp : s.phase ≠ .idle)
    (h : exec (decodeOpcode s.ir) s = .next t) : Inv t := by
  have frame := exec_frame h
  obtain ⟨hir, haaa, hbbb, hcc, hcount⟩ := frame.latched hp
  obtain ⟨hdelay, hcfg, hread, hwrite⟩ := frame.fixed
  have part : InPart (decodeOpcode t.ir) t := hir ▸ exec_keeps_inPart h (inPart_of_inv hs)
  exact {
    memWf := exec_memWf h hs.memWf
    cfgWf := hcfg ▸ hs.cfgWf
    fields := by rw [haaa, hbbb, hcc, hir]; exact hs.fields
    phaseLegal := part.imp_right And.left
    found := part.imp_right And.right
    haltedIdle := fun hr' => (exec_isRunning_or_idle h).resolve_left (by simp [hr, hr'])
    countdown := fun hd' => absurd hd (hdelay ▸ hd')
    brkClear := exec_brkClear h hs.brkClear
    ignSet := fun _ hk => exec_ignSet h (hcfg ▸ hk) (hs.ignSet hr (hcfg ▸ hk))
    countBound := by rw [hcount, hcfg]; exact hs.countBound
    bound := fun _ => by rw [busBound, hread, hwrite]; exact hs.bound hr }

/-- Settles O47, over the kinds of step: none on a halted core, the countdown, the fetch, an execute step. -/
theorem stepKeepsInvariant : Obligations.StepKeepsInvariant := by
  unfold Obligations.StepKeepsInvariant
  intro s t hs h
  rcases step_cases h with ⟨-, rfl⟩ | ⟨-, -, hd, rfl⟩ | ⟨hr, hb, hd, -⟩
  · exact hs
  · exact resetCountdownStep_keeps_inv hs hd
  · by_cases hp : s.phase = .idle
    · rw [step_fetch hr hb hd hp] at h
      cases h
      exact fetchStep_keeps_inv hs hr hd
    · rw [step_execute hr hb hd hp] at h
      exact exec_keeps_inv hs hr hd hp h

/-- Settles O48, over the kinds of step: the invariant binds the bus of a running core, and keeps an execute step in
one of its instruction's parts. -/
theorem invariantStatesAlwaysStep : Obligations.InvariantStatesAlwaysStep := by
  unfold Obligations.InvariantStatesAlwaysStep
  intro s hs
  cases hr : s.isRunning with
  | false => exact ⟨s, step_halted hr⟩
  | true =>
    have hb : busBound s = true := hs.bound hr
    by_cases hd : s.resetDelay = 0
    · by_cases hp : s.phase = .idle
      · exact ⟨_, step_fetch hr hb hd hp⟩
      · rw [step_execute hr hb hd hp]
        exact exec_answers_of_inPart (inPart_of_inv hs)
    · exact ⟨_, step_countdown hr hb hd⟩

end Sys2Proof.Proofs
end

section
/-! PROOFS. What a call does at the bus port (spec/20_memory.md R51, R52, R59, R60; spec/40_core_cycle.md R116):
`exec_bus` says once that it makes the store or the read its schedule lists, and leaves the host's side of the port alone
where none is listed. The log of accesses, and the one access a step can make, are read off it. -/

namespace Sys2Proof.Proofs

open Sys2Proof.Machine Sys2Proof.Laws Sys2Proof.Claims

variable {i : Instr} {s t : State} {m : Mode} {addr : Word} {v : Byte}

/-- From `s` to `t` the host's side of the bus port stands still. -/
structure SameBus (s t : State) : Prop where
  mem : t.mem = s.mem
  answers : t.answers = s.answers
  busLog : t.busLog = s.busLog

theorem SameBus.busAnswer_eq (h : SameBus s t) (addr : Word) : busAnswer t addr = busAnswer s addr := by
  simp only [busAnswer, h.mem, h.answers]

/-- What a call of `i` from `s` to `t` does at the bus port: the store that `stores` lists, else the read that `reads`
lists, else nothing. -/
inductive BusEffect (i : Instr) (s t : State) : Prop
  | store (addr : Word) (v : Byte) (hs : stores i s = some (addr, v)) (h : SameBus (busWrite s addr v) t)
  | read (addr : Word) (hs : stores i s = none) (hr : reads i s = some addr) (h : SameBus (busRead s addr) t)
  | silent (hs : stores i s = none) (hr : reads i s = none) (h : SameBus s t)

/-! ## What the schedule lists for each class of instructions -/

theorem phase_of_mem_resolvePhases {c : Phase} (h : c ∈ resolvePhases m) : c = .c1 ∨ c = .c2 ∨ c = .c3 := by
  cases m <;> cases c <;> simp_all [resolvePhases]

theorem stores_resolving (hi : operandMode i = some m) (hp : s.phase ∈ resolvePhases m) : stores i s = none := by
  rcases phase_of_mem_resolvePhases hp with hp | hp | hp <;> cases i <;> simp_all [operandMode, stores]

theorem reads_resolving (hi : operandMode i = some m) (hp : s.phase ∈ resolvePhases m) :
    reads i s = resolverReads m s := by
  rcases phase_of_mem_resolvePhases hp with hp | hp | hp <;> cases i <;> simp_all [operandMode, reads, isBranch]

theorem stores_of_readOp {op : Byte → State → State} (hi : readOp i = some (m, op)) : stores i s = none := by
  cases i <;> simp_all [readOp, stores]

theorem stores_of_storeOp {reg : State → Byte} (hi : storeOp i = some (m, reg)) (hp : s.phase = .operate) :
    stores i s = some (s.accessAddress, reg s) := by
  cases i <;> simp only [storeOp, Option.some.injEq, Prod.mk.injEq, reduceCtorEq] at hi
  all_goals
    obtain ⟨-, rfl⟩ := hi
    simp only [stores, hp]

theorem stores_of_rmwOp {shift flags : Byte → Byte → Byte} (hi : rmwOp i = some (m, shift, flags)) :
    stores i s = if s.phase = .writeback2 then some (s.accessAddress, s.compareOperand) else none := by
  cases i <;> simp only [rmwOp, reduceCtorEq] at hi
  all_goals cases hp : s.phase <;> simp [stores, hp]

theorem stores_of_branchOp {taken : State → Bool} (hi : branchOp i = some taken) : stores i s = none := by
  cases i <;> simp_all [branchOp, stores]

theorem reads_of_branchOp {taken : State → Bool} (hi : branchOp i = some taken) (hp : s.phase ≠ .idle) :
    reads i s = if s.phase = .c1 then some s.pc else none := by
  cases i <;> simp only [branchOp, reduceCtorEq] at hi
  all_goals cases hp' : s.phase <;> simp_all [reads, isBranch, operandMode, latchesOperand]

theorem reads_operate (hi : latchesOperand i = true) (hp : s.phase = .operate) : reads i s = some s.accessAddress := by
  cases i <;> simp_all [latchesOperand, reads, operandMode]

theorem reads_writeback1 (hp : s.phase = .writeback1) : reads i s = none := by
  cases i <;> simp [reads, hp, operandMode, resolverReads]

/-! ## The parts of a call -/

theorem fetchStep_bus (hp : s.phase = .idle) : BusEffect i s (fetchStep s) := by
  refine .read s.pc ?_ ?_ ⟨rfl, rfl, rfl⟩
  · cases i <;> simp [stores, hp]
  · cases i <;> simp [reads, hp]

/-- A resolving step reads the one byte listed for it; immediate mode leaves its read to the Operate part. -/
theorem resolve_bus (hm : m ≠ .imm) (h : resolve m s = some t) :
    ∃ addr, resolverReads m s = some addr ∧ SameBus (busRead s addr) t := by
  rcases resolve_cases h with ⟨rfl, -, -⟩ | ⟨rfl, hp, rfl⟩ | ⟨rfl | rfl, hp, rfl⟩ | ⟨rfl, hp, rfl⟩ | ⟨rfl, hp, rfl⟩ |
    ⟨rfl, hp, rfl⟩ | ⟨rfl, hp, rfl⟩ | ⟨rfl, hp, rfl⟩
  case inl => exact absurd rfl hm
  all_goals exact ⟨_, by simp only [resolverReads, hp, izxHighAddr], rfl, rfl, rfl⟩

/-- The Operate part of a read-class instruction reads the operand at the address `u` holds, and does nothing else at
the port. -/
theorem readOp_bus {op : Byte → State → State} {u : State} (hi : readOp i = some (m, op)) (hu : SameBus s u)
    (ha : u.accessAddress = addr) : SameBus (busRead s addr) (done (op (operand u) (latchOperand u))) := by
  obtain ⟨a, x, y, p, e, -⟩ := readOp_writes hi (operand u) (latchOperand u)
  rw [e]
  exact { mem := hu.mem, answers := by simp [hu.answers], busLog := by simp [hu.busAnswer_eq, hu.busLog, ha] }

theorem oneCallOp_bus {f : State → State} (hi : oneCallOp i = some f) (hp : s.phase = .c1) :
    BusEffect i s (done (f s)) := by
  cases i <;> simp only [oneCallOp, Option.some.injEq, reduceCtorEq] at hi <;> subst hi
  case php | pha => exact .store _ _ (by simp only [stores, hp]) ⟨rfl, rfl, rfl⟩
  case plp | pla => exact .read _ (by simp only [stores]) (by simp only [reads, hp]) ⟨rfl, rfl, rfl⟩
  all_goals exact .silent (by simp only [stores]) (by simp [reads, hp, isBranch, operandMode]) ⟨rfl, rfl, rfl⟩

/-- Every call of a well-formed instruction does at the bus port what the instruction's schedule lists. -/
theorem exec_bus (hw : i.wf = true) (h : exec i s = .next t) : BusEffect i s t := by
  cases exec_effect h with
  | fetch hp => exact fetchStep_bus hp
  | resolving m t hi hf hr hm =>
    have hp : s.phase ∈ resolvePhases m := resolve_phase hr
    obtain ⟨addr, hread, hbus⟩ := resolve_bus hm hr
    exact .read addr (stores_resolving hi hp) ((reads_resolving hi hp).trans hread) hbus
  | read m op hi hp hf =>
    have hread : reads i s = some s.accessAddress := reads_operate (latchesOperand_of_readOp hi) hp
    exact .read _ (stores_of_readOp hi) hread (readOp_bus hi ⟨rfl, rfl, rfl⟩ rfl)
  | readImm op u hi hp hf hu =>
    subst hu
    have hread : reads i s = some s.pc := by
      rw [reads_resolving (operandMode_of_readOp hi) (by simp [hp, resolvePhases])]
      simp only [resolverReads, hp]
    exact .read _ (stores_of_readOp hi) hread (readOp_bus hi ⟨rfl, rfl, rfl⟩ rfl)
  | store m reg hi hp hf => exact .store _ _ (stores_of_storeOp hi hp) ⟨rfl, rfl, rfl⟩
  | rmwRead m shift flags hi hp hf =>
    exact .read _ (by simp [stores_of_rmwOp hi, hp]) (reads_operate (latchesOperand_of_rmwOp hi) hp) ⟨rfl, rfl, rfl⟩
  | rmwCompute m shift flags hi hp hf =>
    exact .silent (by simp [stores_of_rmwOp hi, hp]) (reads_writeback1 hp) ⟨rfl, rfl, rfl⟩
  | rmwWrite m shift flags hi hp hf => exact .store _ _ (by simp [stores_of_rmwOp hi, hp]) ⟨rfl, rfl, rfl⟩
  | storeImm reg u hi hp hu => exact absurd rfl (storeOp_wf hw hi)
  | rmwImm shift flags u hi hp hu => exact absurd rfl (rmwOp_wf hw hi)
  | oneCall f hi hp => exact oneCallOp_bus hi hp
  | halting trap hi hp =>
    cases i <;> simp only [haltOp, Option.some.injEq, reduceCtorEq] at hi <;> subst hi
    all_goals exact .silent (by simp only [stores]) (by simp [reads, hp, isBranch, operandMode]) ⟨rfl, rfl, rfl⟩
  | unmodelledNop hi hp hk | unmodelledHalt hi hp hk | unmodelledHang hi hp hk =>
    cases i <;> simp only [isUnmodelled, reduceCtorEq] at hi
    all_goals exact .silent (by simp only [stores]) (by simp [reads, hp, isBranch, operandMode]) ⟨rfl, rfl, rfl⟩
  | branchTaken taken hi hp hk | branchNotTaken taken hi hp hk =>
    exact .read _ (stores_of_branchOp hi) (by simp [reads_of_branchOp hi, hp]) ⟨rfl, rfl, rfl⟩
  | branchCross taken hi hp hk | branchSamePage taken hi hp hk | branchFixPage taken hi hp =>
    exact .silent (stores_of_branchOp hi) (by simp [reads_of_branchOp hi, hp]) ⟨rfl, rfl, rfl⟩
  | jsr3 hi hp | jsr4 hi hp =>
    subst hi
    exact .store _ _ (by simp only [stores, hp]) ⟨rfl, rfl, rfl⟩
  | jmpInd3 hi hp =>
    subst hi
    exact .silent (by simp only [stores]) (by simp [reads, hp, operandMode]) ⟨rfl, rfl, rfl⟩
  | jsr1 hi hp | jsr2 hi hp | rts1 hi hp | rts2 hi hp | rts3 hi hp | jmpAbs1 hi hp | jmpAbs2 hi hp | jmpInd1 hi hp
  | jmpInd2 hi hp | jmpInd4 hi hp | jmpInd5 hi hp =>
    subst hi
    exact .read _ (by simp only [stores, hp]) (by simp only [reads, hp]) ⟨rfl, rfl, rfl⟩

/-! ## The log of accesses -/

/-- Settles O40, from what a call does at the bus port. -/
theorem busAccessesFollowSchedule : Obligations.BusAccessesFollowSchedule := by
  unfold Obligations.BusAccessesFollowSchedule
  intro i s t hw h
  cases exec_bus hw h with
  | store addr v hs hbus => simp [busAccess, hs, hbus.busLog]
  | read addr hs hr hbus => simp [busAccess, hs, hr, hbus.busLog]
  | silent hs hr hbus => simp [busAccess, hs, hr, hbus.busLog]

/-- Every byte decodes to a row of the opcode table (R87). -/
theorem decodeOpcode_wf : ∀ b : Byte, (decodeOpcode b).wf = true := by decide +kernel

/-- The countdown reads one byte of the reset vector, or nothing (R331). -/
theorem resetCountdownStep_busLog (s : State) :
    (resetCountdownStep s).busLog = s.busLog ∨
    ∃ access : BusAccess, (resetCountdownStep s).busLog = access :: s.busLog := by
  unfold resetCountdownStep
  split
  · exact .inr ⟨_, rfl⟩
  · split
    · exact .inr ⟨_, rfl⟩
    · exact .inl rfl

/-- Settles O41, over the kinds of step: none on a halted core, the countdown, a call of the decoded instruction. -/
theorem oneBusAccessPerStep : Obligations.OneBusAccessPerStep := by
  unfold Obligations.OneBusAccessPerStep
  intro s t h
  rcases step_cases h with ⟨-, rfl⟩ | ⟨-, -, -, rfl⟩ | ⟨-, -, -, h⟩
  · exact .inl rfl
  · exact resetCountdownStep_busLog s
  · have hlog := busAccessesFollowSchedule (currentInstr s) s t (decodeOpcode_wf _) h
    cases hacc : busAccess (currentInstr s) s with
    | none => exact .inl (by rw [hlog, hacc]; rfl)
    | some access => exact .inr ⟨access, by rw [hlog, hacc]; rfl⟩

end Sys2Proof.Proofs
end

section
/-! PROOFS. The calls that store (spec/20_memory.md R65, spec/40_core_cycle.md R114, R115, spec/00_scope.md R17): each
answers, leaves the core executing, and stores a byte that the RAM host of R52 answers to the fetches after it. -/

namespace Sys2Proof.Proofs

open Sys2Proof.Machine Sys2Proof.Laws Sys2Proof.Claims

variable {i : Instr} {s t : State} {m : Mode} {addr : Word} {v : Byte}

theorem exec_of_storeOp {reg : State → Byte} (h : storeOp i = some (m, reg)) : exec i s = storeInstr m reg s := by
  cases i <;> simp only [storeOp, Option.some.injEq, Prod.mk.injEq, reduceCtorEq] at h
  all_goals
    obtain ⟨rfl, rfl⟩ := h
    rfl

theorem exec_of_rmwOp {shift flags : Byte → Byte → Byte} (h : rmwOp i = some (m, shift, flags)) :
    exec i s = rmwInstr m shift flags s := by
  cases i <;> simp only [rmwOp, Option.some.injEq, Prod.mk.injEq, reduceCtorEq] at h
  all_goals
    obtain ⟨rfl, rfl, rfl⟩ := h
    rfl

/-- The calls that store: a store's Operate part, a shift's Writeback2, the push of PHP or PHA, the two pushes of JSR. -/
theorem stores_cases (h : stores i s = some (addr, v)) :
    (s.phase = .operate ∧ ∃ m reg, storeOp i = some (m, reg)) ∨
    (s.phase = .writeback2 ∧ ∃ m shift flags, rmwOp i = some (m, shift, flags)) ∨
    (s.phase = .c1 ∧ (i = .php ∨ i = .pha)) ∨
    ((s.phase = .c3 ∨ s.phase = .c4) ∧ i = .jsr) := by
  unfold stores at h
  split at h
  · exact .inl ⟨‹_›, _, _, rfl⟩
  · exact .inl ⟨‹_›, _, _, rfl⟩
  · exact .inl ⟨‹_›, _, _, rfl⟩
  · exact .inr (.inl ⟨‹_›, _, _, _, rfl⟩)
  · exact .inr (.inl ⟨‹_›, _, _, _, rfl⟩)
  · exact .inr (.inr (.inl ⟨‹_›, .inl rfl⟩))
  · exact .inr (.inr (.inl ⟨‹_›, .inr rfl⟩))
  · exact .inr (.inr (.inr ⟨.inl ‹_›, rfl⟩))
  · exact .inr (.inr (.inr ⟨.inr ‹_›, rfl⟩))
  · simp at h

/-- A call that stores answers, the address found where the instruction uses the resolver. -/
theorem exec_answers_of_stores (hf : operandMode i ≠ none → s.foundAddress = true)
    (hs : stores i s = some (addr, v)) : ∃ t, exec i s = .next t := by
  rcases stores_cases hs with ⟨hp, m, reg, hi⟩ | ⟨hp, m, shift, flags, hi⟩ | ⟨hp, rfl | rfl⟩ | ⟨hp | hp, rfl⟩
  · have hfound : s.foundAddress = true := hf (by simp [operandMode_of_storeOp hi])
    rw [exec_of_storeOp hi, storeInstr, withOperand_ready (by rw [hp]; rfl) hfound]
    simp [operateStore, hp]
  · have hfound : s.foundAddress = true := hf (by simp [operandMode_of_rmwOp hi])
    rw [exec_of_rmwOp hi, rmwInstr, withOperand_ready (by rw [hp]; rfl) hfound]
    simp [operateRmw, hp]
  · simp [exec, execPhp, oneCallInstr, hp]
  · simp [exec, execPha, oneCallInstr, hp]
  · simp [exec, execJsr, hp]
  · simp [exec, execJsr, hp]

theorem stores_of_takesIllegalTrap (h : TakesIllegalTrap i s) : stores i s = none := by
  rcases h with ⟨opcode, rfl⟩ | ⟨hi, -⟩
  · simp only [stores]
  · cases i <;> simp_all [isUnmodelled, stores]

/-- A call that stores does not halt: neither BRK nor the illegal-opcode trap stores. -/
theorem exec_isRunning_of_stores (hs : stores i s = some (addr, v)) (h : exec i s = .next t) :
    t.isRunning = s.isRunning := by
  rcases exec_quiet_or_trace_or_halt h with ⟨-, hr⟩ | ⟨-, -, rfl⟩ | ⟨rfl, -, -⟩ | ⟨htrap, -, -⟩
  · exact hr
  · rfl
  · simp [stores] at hs
  · simp [stores_of_takesIllegalTrap htrap] at hs

theorem executing_of_stores (hs : stores i s = some (addr, v)) (hx : Executing s) (h : exec i s = .next t) :
    Executing t := by
  obtain ⟨hrun, hbound, hdelay⟩ := hx
  obtain ⟨hdelay', -, hread, hwrite⟩ := (exec_frame h).fixed
  refine ⟨(exec_isRunning_of_stores hs h).trans hrun, ?_, hdelay'.trans hdelay⟩
  rw [busBound, hread, hwrite]
  exact hbound

/-- A call that stores does its listed write at the bus port. -/
theorem exec_bus_of_stores (hw : i.wf = true) (hs : stores i s = some (addr, v)) (h : exec i s = .next t) :
    SameBus (busWrite s addr v) t := by
  cases exec_bus hw h with
  | store addr' v' hs' hbus =>
    cases hs.symm.trans hs'
    exact hbus
  | read addr' hs' hr hbus | silent hs' hr hbus => simp [hs] at hs'

/-- A host that answers from its memory answers a byte just written to it (R52). -/
theorem busAnswer_written (hw : Memory.wf s.mem = true) (hmem : t.mem = writeByte s.mem addr.toNat v)
    (hram : t.answers = []) : busAnswer t addr = v := by
  rw [busAnswer_of_ram t addr hram, hmem, readByte_writeByte_same _ _ _ hw]

/-- Settles O44: the call that stores answers a core still executing, whose next step between instructions is the fetch
step; that step reads the stored byte, or leaves it to be read at PC. -/
theorem storeIsSeenByNextFetch : Obligations.StoreIsSeenByNextFetch := by
  unfold Obligations.StoreIsSeenByNextFetch
  intro s addr v hx hw hram hp hf hs
  obtain ⟨t, h⟩ := exec_answers_of_stores hf hs
  have hbus : SameBus (busWrite s addr v) t := exec_bus_of_stores (decodeOpcode_wf _) hs h
  have hram' : t.answers = [] := hbus.answers.trans hram
  have ⟨hrun, hbound, hdelay⟩ := executing_of_stores hs hx h
  obtain ⟨hrun₀, hbound₀, hdelay₀⟩ := hx
  refine ⟨t, (step_execute hrun₀ hbound₀ hdelay₀ hp).trans h, fun hidle hpc => ?_, fun hidle hpc => ?_⟩
  all_goals refine ⟨fetchStep t, step_fetch hrun hbound hdelay hidle, ?_⟩
  · subst hpc
    exact ⟨busAnswer_written hw hbus.mem hram', rfl, rfl⟩
  · subst hpc
    exact ⟨rfl, busAnswer_written hw hbus.mem (congrArg List.tail hram')⟩

end Sys2Proof.Proofs
end

section
/-! PROOFS. Decoding and encoding are inverse (spec/30_encoding.md R70 to R88): the routing of R75 takes an opcode apart
into the fields it was made of, group by group; and the offset byte of a branch leads to its label. -/

namespace Sys2Proof.Proofs

open Sys2Proof.Machine

variable {slot : BitVec 3} {m : Mode}

/-! ## The fields of an opcode (R70) -/

/-- The bits of an opcode made of its fields. -/
theorem getLsbD_opcodeOf (aaa bbb : BitVec 3) (cc : BitVec 2) (n : Nat) :
    (opcodeOf aaa bbb cc).getLsbD n =
      if n < 2 then cc.getLsbD n else if n - 2 < 3 then bbb.getLsbD (n - 2) else aaa.getLsbD (n - 2 - 3) := by
  rw [show (opcodeOf aaa bbb cc).getLsbD n = ((aaa ++ bbb) ++ cc).getLsbD n from rfl, BitVec.getLsbD_append,
    BitVec.getLsbD_append]

@[simp] theorem opcodeAaa_opcodeOf (aaa bbb : BitVec 3) (cc : BitVec 2) : opcodeAaa (opcodeOf aaa bbb cc) = aaa := by
  refine BitVec.eq_of_getLsbD_eq fun n hn => ?_
  have hbbb : ¬ 5 + n - 2 < 3 := by omega
  have hcc : ¬ 5 + n < 2 := by omega
  simp [opcodeAaa, getLsbD_opcodeOf, hn, hbbb, hcc, show 5 + n - 2 - 3 = n by omega]

@[simp] theorem opcodeBbb_opcodeOf (aaa bbb : BitVec 3) (cc : BitVec 2) : opcodeBbb (opcodeOf aaa bbb cc) = bbb := by
  refine BitVec.eq_of_getLsbD_eq fun n hn => ?_
  simp [opcodeBbb, getLsbD_opcodeOf, hn, show 1 < 2 + n by omega]

@[simp] theorem opcodeCc_opcodeOf (aaa bbb : BitVec 3) (cc : BitVec 2) : opcodeCc (opcodeOf aaa bbb cc) = cc := by
  refine BitVec.eq_of_getLsbD_eq fun n hn => ?_
  simp [opcodeCc, getLsbD_opcodeOf, hn]

/-! ## The accumulator group (R73, R76, R77) -/

theorem slotMode_modeSlot (m : Mode) : slotMode (modeSlot m) = some m := by cases m <;> rfl

theorem slotMode_of_unmodelled (h : unmodelledGroup1Slot slot = true) : slotMode slot = none := by
  simp only [unmodelledGroup1Slot, Bool.or_eq_true, beq_iff_eq] at h
  obtain (rfl | rfl) | rfl := h <;> rfl

theorem decodeOpcode_group1 (aaa : BitVec 3) (m : Mode) :
    decodeOpcode (opcodeOf aaa (modeSlot m) 0b01) = group1Instr aaa m := by
  simp [decodeOpcode, decodeGroup1, slotMode_modeSlot]

theorem decodeOpcode_group1Unmodelled (aaa : BitVec 3) (h : unmodelledGroup1Slot slot = true) :
    decodeOpcode (opcodeOf aaa slot 0b01) = group1Unmodelled aaa slot := by
  simp [decodeOpcode, decodeGroup1, slotMode_of_unmodelled h]

/-! ## The shift group (R78) -/

theorem decodeOpcode_shift {aaa bbb : BitVec 3} (ha : aaa = 0b000 ∨ aaa = 0b001) (hb : isShiftSlot bbb = true) :
    decodeOpcode (opcodeOf aaa bbb 0b10) = decodeShift aaa bbb := by
  have ha' : aaa = 0b000#3 ∨ aaa = 0b001#3 := ha
  simp [decodeOpcode, ha', hb]

theorem shiftSlot_of_unmodelled (h : unmodelledShiftSlot slot = true) :
    isShiftSlot slot = true ∧ slot ≠ 0b001#3 ∧ slot ≠ 0b010#3 ∧ slot ≠ 0b011#3 := by
  simp only [unmodelledShiftSlot, Bool.or_eq_true, beq_iff_eq] at h
  obtain rfl | rfl := h <;> decide

theorem decodeOpcode_unmodelledAsl (h : unmodelledShiftSlot slot = true) :
    decodeOpcode (opcodeOf 0b000 slot 0b10) = .unmodelledAsl slot := by
  obtain ⟨hs, h1, h2, h3⟩ := shiftSlot_of_unmodelled h
  rw [decodeOpcode_shift (.inl rfl) hs]
  simp [decodeShift, h1, h2, h3]

theorem decodeOpcode_unmodelledRol (h : unmodelledShiftSlot slot = true) :
    decodeOpcode (opcodeOf 0b001 slot 0b10) = .unmodelledRol slot := by
  obtain ⟨hs, h1, h2, h3⟩ := shiftSlot_of_unmodelled h
  rw [decodeOpcode_shift (.inr rfl) hs]
  simp [decodeShift, h1, h2, h3]

theorem zp_or_abs_of_isZpOrAbs (h : m.isZpOrAbs = true) : m = .zp ∨ m = .abs := by
  cases m <;> simp_all [Mode.isZpOrAbs]

theorem imm_or_zp_or_abs_of_isImmZpOrAbs (h : m.isImmZpOrAbs = true) : m = .imm ∨ m = .zp ∨ m = .abs := by
  cases m <;> simp_all [Mode.isImmZpOrAbs]

/-! ## The special table (R79) and the illegal opcodes (R80) -/

/-- No row of the special table is routed to a group, and no two have one byte. -/
theorem decodeOpcode_special : ∀ r ∈ specialTable, decodeOpcode r.1 = r.2 := by decide

theorem decodeOpcode_illegal : ∀ b ∈ illegalOpcodes, decodeOpcode b = .illegal b := by decide +kernel

/-! ## The two round trips -/

/-- Settles O49, over the groups of R75: the accumulator group, the shift group, the illegal opcodes, and the rows of
the special table. -/
theorem decodeOfEncodeIsIdentity : Obligations.DecodeOfEncodeIsIdentity := by
  unfold Obligations.DecodeOfEncodeIsIdentity
  intro i hw
  cases i with
  | ora m | and m | eor m | adc m | lda m | cmp m | sbc m => exact decodeOpcode_group1 _ m
  | sta m =>
    have hm : m ≠ .imm := bne_iff_ne.1 hw
    exact (decodeOpcode_group1 _ m).trans (by simp [group1Instr, hm])
  | nopStaImm => exact decodeOpcode_group1 0b100 .imm
  | unmodelledOra _ | unmodelledAnd _ | unmodelledEor _ | unmodelledAdc _ | unmodelledSta _ | unmodelledLda _
  | unmodelledCmp _ | unmodelledSbc _ => exact decodeOpcode_group1Unmodelled _ hw
  | unmodelledAsl _ => exact decodeOpcode_unmodelledAsl hw
  | unmodelledRol _ => exact decodeOpcode_unmodelledRol hw
  | asl m | rol m =>
    obtain rfl | rfl := zp_or_abs_of_isZpOrAbs hw <;> exact decodeOpcode_shift (by decide) (by decide)
  | aslA | rolA => exact decodeOpcode_shift (by decide) (by decide)
  | illegal b => exact decodeOpcode_illegal b (List.contains_iff_mem.1 hw)
  | ldx m =>
    have hm : m ≠ .izx := bne_iff_ne.1 hw
    cases m with
    | izx => exact absurd rfl hm
    | _ => exact decodeOpcode_special (_, _) (by decide)
  | ldy m | cpx m | cpy m =>
    obtain rfl | rfl | rfl := imm_or_zp_or_abs_of_isImmZpOrAbs hw <;>
      exact decodeOpcode_special (_, _) (by decide)
  | stx m | sty m | bit m =>
    obtain rfl | rfl := zp_or_abs_of_isZpOrAbs hw <;> exact decodeOpcode_special (_, _) (by decide)
  | _ => exact decodeOpcode_special (_, _) (by decide)

/-- The encoder gives back the byte an instruction was decoded from. -/
theorem encode_decodeOpcode : ∀ b : Byte, encode (decodeOpcode b) = b := by decide +kernel

/-- Settles O50: the illegal instruction of a byte is well formed exactly when R80 lists the byte. -/
theorem everyByteIsOneInstruction : Obligations.EveryByteIsOneInstruction := by
  unfold Obligations.EveryByteIsOneInstruction
  intro b
  refine ⟨decodeOpcode_wf b, encode_decodeOpcode b, fun h => ?_, decodeOpcode_illegal b⟩
  have hw : (Instr.illegal b).wf = true := h ▸ decodeOpcode_wf b
  exact List.contains_iff_mem.1 hw

/-- Settles O51, by decoding each word. -/
theorem opcodeWordsDecode : Obligations.OpcodeWordsDecode := by
  unfold Obligations.OpcodeWordsDecode
  decide

/-! ## The offset of a branch (R88) -/

/-- A word between -128 and 127 is the sign extension of its low byte. -/
theorem sext16_setWidth {d : Word} (hlo : -128 ≤ d.toInt) (hhi : d.toInt ≤ 127) : sext16 (d.setWidth 8) = d := by
  refine BitVec.eq_of_toInt_eq ?_
  calc (sext16 (d.setWidth 8)).toInt
    _ = (d.toNat : Int).bmod (2 ^ 8) := by
      rw [sext16, BitVec.toInt_signExtend_of_le (by decide), BitVec.toInt_setWidth]
    _ = d.toInt.bmod (2 ^ 8) := by
      rw [BitVec.toInt_eq_toNat_bmod, Int.bmod_bmod_of_dvd (by decide)]
    _ = d.toInt := Int.bmod_eq_of_le (by omega) (by omega)

/-- Settles O52: in R88's range the offset extends to the distance from the next instruction to the label. -/
theorem branchOffsetReachesLabel : Obligations.BranchOffsetReachesLabel := by
  unfold Obligations.BranchOffsetReachesLabel
  intro source target offset h
  simp only [branchOffset, Option.ite_none_right_eq_some, Option.some.injEq] at h
  obtain ⟨⟨hlo, hhi⟩, rfl⟩ := h
  rw [branchTarget, sext16_setWidth hlo hhi]
  exact add_sub_cancel _ _

end Sys2Proof.Proofs
end

section
/-! PROOFS. Whole instructions that use the resolver, from their fetch (spec/30_encoding.md R72, spec/40_core_cycle.md R102,
R106 to R116): the resolver's calls one by one for every answer of the host, its run on the RAM host of R52 to the
effective address, and the Operate and write-back parts of the three classes after it. -/

namespace Sys2Proof.Proofs

open Sys2Proof.Machine Sys2Proof.Laws Sys2Proof.Claims

variable {i : Instr} {s t u : State} {m : Mode} {operate : State → Host.Outcome State Fault Refusal}

/-! ## Reads on a RAM host, and a byte as a word -/

/-- A bus read that the host answers from its memory. -/
def ramRead (mem : Memory) (addr : Word) : BusAccess := .read addr (readByte mem addr.toNat)

/-- A host with no answer in hand answers a read from its memory, and has none after it. -/
theorem busRead_of_ram (addr : Word) (h : s.answers = []) :
    busRead s addr = { s with busLog := ramRead s.mem addr :: s.busLog } := by
  simp [busRead, busAnswer_of_ram s addr h, h, ramRead]

theorem takePcByte_of_ram (h : s.answers = []) :
    takePcByte s = { s with pc := s.pc + 1, busLog := ramRead s.mem s.pc :: s.busLog } := by
  rw [takePcByte, busRead_of_ram _ h]

theorem pcByte_of_ram (h : s.answers = []) : pcByte s = readByte s.mem s.pc.toNat := busAnswer_of_ram s _ h

theorem zext16_eq_mkWord (b : Byte) : zext16 b = mkWord 0 b := by
  refine BitVec.eq_of_getLsbD_eq fun n hn => ?_
  rw [zext16, BitVec.getLsbD_setWidth, getLsbD_mkWord]
  split
  · simp [hn]
  · simp [BitVec.getLsbD_of_ge b n (by omega)]

theorem lowByte_zext16 (b : Byte) : lowByte (zext16 b) = b := by
  rw [zext16_eq_mkWord, lowByte_mkWord]

/-! ## The resolver's calls, for every answer of the host -/

/-- An instruction that uses the resolver is a handler over it. -/
theorem exec_withOperand (hi : operandMode i = some m) : ∃ operate, ∀ s, exec i s = withOperand m operate s := by
  cases exec_shape i with
  | read m' op h e =>
    cases hi.symm.trans (operandMode_of_readOp h)
    exact ⟨_, e⟩
  | store m' reg h e =>
    cases hi.symm.trans (operandMode_of_storeOp h)
    exact ⟨_, e⟩
  | rmw m' shift flags h e =>
    cases hi.symm.trans (operandMode_of_rmwOp h)
    exact ⟨_, e⟩
  | oneCall f h e => simp [phases_of_oneCallOp h] at hi
  | halting f h e => simp [phases_of_haltOp h] at hi
  | branch taken h e => simp [phases_of_branchOp h] at hi
  | unmodelled h e => simp [phases_of_unmodelled h] at hi
  | jsr h e | rts h e | jmpAbs h e | jmpInd h e =>
    subst h
    simp [operandMode] at hi

/-- A resolving call is the resolver's step (R106). -/
theorem exec_resolving (hi : operandMode i = some m) (hm : m ≠ .imm) (hf : s.foundAddress = false)
    (h : resolve m s = some t) : exec i s = .next t := by
  obtain ⟨operate, e⟩ := exec_withOperand hi
  rw [e, withOperand_resolving hm hf h]

/-! The resolver's steps, by mode and phase (R108 to R111); the first operand byte is read alike in the two absolute
modes. -/

theorem resolve_zp_c1 (hp : s.phase = .c1) :
    resolve .zp s = some (addressReady (zext16 (pcByte s)) (takePcByte s)) := by
  simp [resolve, resolveZp, hp]

theorem resolve_low_operand (hm : m = .abs ∨ m = .absY) (hp : s.phase = .c1) :
    resolve m s = some (takeLowOperand s) := by
  rcases hm with rfl | rfl
  · simp [resolve, resolveAbs, hp]
  · simp [resolve, resolveAbsY, hp]

theorem resolve_abs_c2 (hp : s.phase = .c2) :
    resolve .abs s = some (addressReady (setHigh s.accessAddress (pcByte s)) (takePcByte s)) := by
  simp [resolve, resolveAbs, hp]

theorem resolve_absY_c2 (hp : s.phase = .c2) :
    resolve .absY s = some (addressReady (setHigh s.accessAddress (pcByte s) + zext16 s.y) (takePcByte s)) := by
  simp [resolve, resolveAbsY, hp]

theorem resolve_izx_c1 (hp : s.phase = .c1) :
    resolve .izx s = some { takePcByte s with indirectAddress := zext16 (pcByte s + s.x), phase := .c2 } := by
  simp [resolve, resolveIzx, hp]

theorem resolve_izx_c2 (hp : s.phase = .c2) :
    resolve .izx s = some { busRead s s.indirectAddress with
      accessAddress := setLow s.accessAddress (busAnswer s s.indirectAddress), phase := .c3 } := by
  simp [resolve, resolveIzx, hp]

theorem resolve_izx_c3 (hp : s.phase = .c3) :
    resolve .izx s =
      some (addressReady (setHigh s.accessAddress (busAnswer s (izxHighAddr s))) (busRead s (izxHighAddr s))) := by
  simp [resolve, resolveIzx, hp]

/-! ## The fetch and the resolver on a RAM host -/

/-- An execute step is a call of the instruction in IR (R103). -/
theorem step_decoded (hx : Executing s) (hir : decodeOpcode s.ir = i) (hp : s.phase ≠ .idle) :
    step s = exec i s := by
  obtain ⟨hrun, hbound, hdelay⟩ := hx
  rw [step_execute hrun hbound hdelay hp, hir]

/-- A resolving call of `i` is due on a core whose host answers from its memory. -/
structure Resolving (i : Instr) (s : State) : Prop where
  executing : Executing s
  decoded : decodeOpcode s.ir = i
  ram : s.answers = []
  unfound : s.foundAddress = false

/-- The step of the machine is the resolver's where a resolving call is due. -/
theorem Resolving.step_eq (hs : Resolving i s) (hi : operandMode i = some m) (hm : m ≠ .imm)
    (h : resolve m s = some t) : step s = .next t := by
  have hp : s.phase ≠ .idle := by
    rcases phase_of_mem_resolvePhases (resolve_phase h) with hp | hp | hp <;> simp [hp]
  rw [step_decoded hs.executing hs.decoded hp, exec_resolving hi hm hs.unfound h]

/-- The accesses of the resolver on a RAM host, newest first: the operand bytes, and in (zp,X) mode the two bytes of the
pointer (R108 to R111). -/
def resolverLog (m : Mode) (s : State) : List BusAccess :=
  let pointer : Byte := readByte s.mem s.pc.toNat + s.x
  match m with
  | .imm => []
  | .zp => [ramRead s.mem s.pc]
  | .abs | .absY => [ramRead s.mem (s.pc + 1), ramRead s.mem s.pc]
  | .izx => [ramRead s.mem (zext16 (pointer + 1)), ramRead s.mem (zext16 pointer), ramRead s.mem s.pc]

/-- The state in which the Operate part is due, the resolver having run from `s` (R72, R106). -/
def resolved (m : Mode) (s : State) : State :=
  { s with
    pc := s.pc + BitVec.ofNat 16 m.operandBytes
    foundAddress := true
    accessAddress := effectiveAddress m s
    indirectAddress := if m = .izx then zext16 (readByte s.mem s.pc.toNat + s.x) else s.indirectAddress
    phase := .operate
    busLog := resolverLog m s ++ s.busLog }

/-- A step that does not end the resolver leaves another due. -/
theorem Resolving.next (hs : Resolving i s) (h : resolve m s = some t) (hp : t.phase ≠ .operate) : Resolving i t := by
  rcases resolve_cases h with ⟨-, -, rfl⟩ | ⟨-, -, rfl⟩ | ⟨-, -, rfl⟩ | ⟨-, -, rfl⟩ | ⟨-, -, rfl⟩ | ⟨-, -, rfl⟩ |
    ⟨-, -, rfl⟩ | ⟨-, -, rfl⟩
  case inr.inr.inl | inr.inr.inr.inr.inr.inl | inr.inr.inr.inr.inr.inr.inl =>
    exact ⟨hs.executing, hs.decoded, congrArg List.tail hs.ram, hs.unfound⟩
  all_goals exact absurd rfl hp

/-- The resolver's run: a read for each operand byte, and in (zp,X) mode for each pointer byte, then the address is
final. -/
theorem run_resolver (hs : Resolving i s) (hi : operandMode i = some m) (hm : m ≠ .imm) (hp : s.phase = .c1) :
    run (m.calls - 2) s = .next (resolved m s) := by
  have hram : s.answers = [] := hs.ram
  cases m with
  | imm => exact absurd rfl hm
  | zp =>
    have h1 := hs.step_eq hi hm (resolve_zp_c1 hp)
    refine (run_succ 0 h1).trans (congrArg Host.Outcome.next ?_)
    simp [addressReady, takePcByte_of_ram, pcByte_of_ram, hram, resolved, effectiveAddress, zext16_eq_mkWord,
      Mode.operandBytes, resolverLog]
  | abs | absY =>
    have hs1 := hs.next (resolve_low_operand (.inl rfl) hp) nofun
    have h1 := hs.step_eq hi hm (resolve_low_operand (by decide) hp)
    have h2 := hs1.step_eq hi hm rfl
    refine (run_succ 1 h1).trans ((run_succ 0 h2).trans (congrArg Host.Outcome.next ?_))
    simp [addressReady, takeLowOperand, takePcByte_of_ram, pcByte_of_ram, hram, resolved, effectiveAddress,
      Mode.operandBytes, setHigh_setLow, resolverLog, BitVec.add_assoc]
  | izx =>
    have hs1 := hs.next (resolve_izx_c1 hp) nofun
    have hs2 := hs1.next (resolve_izx_c2 rfl) nofun
    have h1 := hs.step_eq hi hm (resolve_izx_c1 hp)
    have h2 := hs1.step_eq hi hm (resolve_izx_c2 rfl)
    have h3 := hs2.step_eq hi hm (resolve_izx_c3 rfl)
    refine (run_succ 2 h1).trans ((run_succ 1 h2).trans ((run_succ 0 h3).trans (congrArg Host.Outcome.next ?_)))
    simp [addressReady, takePcByte_of_ram, pcByte_of_ram, hram, resolved, effectiveAddress, busRead_of_ram,
      busAnswer_of_ram, Mode.operandBytes, setHigh_setLow, izxHighAddr, lowByte_zext16, resolverLog]

/-! ## From the fetch to the Operate part -/

theorem length_of_operandMode (hi : operandMode i = some m) : i.length = 1 + m.operandBytes := by
  cases i <;> simp_all [operandMode, Instr.length]

/-- The accesses from the fetch at `s` to the Operate part, newest first. -/
def addressingLog (m : Mode) (s : State) : List BusAccess :=
  resolverLog m { s with pc := s.pc + 1 } ++ [ramRead s.mem s.pc]

theorem length_addressingLog (m : Mode) (s : State) : (addressingLog m s).length = m.calls - 1 := by
  cases m <;> rfl

/-- The state in which the Operate part is due, an instruction fetched at `s` having resolved its operand. -/
def atOperate (i : Instr) (m : Mode) (s : State) : State :=
  { afterResolving i m s with
    phase := .operate
    busLog := addressingLog m s ++ s.busLog }

theorem resolved_fetchStep (hi : operandMode i = some m) (hs : AtInstr i s) :
    resolved m (fetchStep s) = atOperate i m s := by
  obtain ⟨-, -, hram, hop⟩ := hs
  have hbyte : pcByte s = encode i := (pcByte_of_ram hram).trans hop
  have hlen : BitVec.ofNat 16 i.length = 1#16 + BitVec.ofNat 16 m.operandBytes := by
    rw [length_of_operandMode hi, BitVec.ofNat_add]
  have hlog : resolverLog m (fetchStep s) = resolverLog m { s with pc := s.pc + 1 } := rfl
  have hea : effectiveAddress m (fetchStep s) = effectiveAddress m { s with pc := s.pc + 1 } := rfl
  simp [resolved, atOperate, afterResolving, addressingLog, ramRead, hbyte, hlen, BitVec.add_assoc, hram, hlog, hea,
    busAnswer_of_ram]

/-- The fetch of a well-formed instruction leaves its first execute call due. -/
theorem fetch_of_atInstr (hs : AtInstr i s) (hw : i.wf = true) :
    step s = .next (fetchStep s) ∧ Resolving i (fetchStep s) := by
  obtain ⟨hx, hp, hram, hop⟩ := hs
  obtain ⟨hrun, hbound, hdelay⟩ := hx
  have hir : pcByte s = encode i := (pcByte_of_ram hram).trans hop
  refine ⟨step_fetch hrun hbound hdelay hp, ⟨hrun, hbound, hdelay⟩, ?_, congrArg List.tail hram, rfl⟩
  rw [fetchStep_ir, hir, decodeOfEncodeIsIdentity i hw]

/-- The calls of a mode, from the fetch to the one whose Operate part is due. -/
theorem run_to_operate (hw : i.wf = true) (hi : operandMode i = some m) (hm : m ≠ .imm) (hs : AtInstr i s) :
    run (m.calls - 1) s = .next (atOperate i m s) := by
  obtain ⟨hfetch, hres⟩ := fetch_of_atInstr hs hw
  have hcalls : m.calls - 1 = (m.calls - 2) + 1 := by cases m <;> rfl
  rw [hcalls, run_succ _ hfetch, run_resolver hres hi hm rfl, resolved_fetchStep hi hs]

/-- The calls of a mode, the Operate part made: in immediate mode it runs within the resolving call (R107). -/
theorem run_operate (hw : i.wf = true) (hi : operandMode i = some m) (e : ∀ t, exec i t = withOperand m operate t)
    (hs : AtInstr i s) (h : operate (atOperate i m s) = .next u) : run m.calls s = .next u := by
  obtain ⟨hfetch, hres⟩ := fetch_of_atInstr hs hw
  by_cases hm : m = .imm
  · subst hm
    have hstep : step (fetchStep s) = .next u := by
      rw [step_decoded hres.executing hres.decoded nofun, e, withOperand_imm rfl rfl, ← h, ← resolved_fetchStep hi hs]
      rfl
    exact (run_succ 1 hfetch).trans (run_succ 0 hstep)
  · have hx : Executing (atOperate i m s) := hs.1
    have hstep : step (atOperate i m s) = .next u := by
      rw [step_decoded hx (decodeOfEncodeIsIdentity i hw) nofun, e, withOperand_ready rfl rfl, h]
    have hcalls : m.calls = (m.calls - 1) + 1 := by cases m <;> rfl
    rw [hcalls, run_add (run_to_operate hw hi hm hs), run_succ 0 hstep, run_zero]

/-! ## The resolver -/

/-- Settles O53: each call is the resolver's step, and the fetch and the resolver run to the effective address. -/
theorem resolverComputesEffectiveAddress : Obligations.ResolverComputesEffectiveAddress := by
  unfold Obligations.ResolverComputesEffectiveAddress
  refine ⟨fun i s hf => ⟨?_, ?_, ?_, ?_, ?_, ?_, ?_⟩, fun i m s hw hi hm hs => ?_⟩
  · exact fun hi hp => exec_resolving hi (by decide) hf (resolve_zp_c1 hp)
  · rintro (hi | hi) hp
    · exact exec_resolving hi (by decide) hf (resolve_low_operand (.inl rfl) hp)
    · exact exec_resolving hi (by decide) hf (resolve_low_operand (.inr rfl) hp)
  · exact fun hi hp => exec_resolving hi (by decide) hf (resolve_abs_c2 hp)
  · exact fun hi hp => exec_resolving hi (by decide) hf (resolve_absY_c2 hp)
  · exact fun hi hp => exec_resolving hi (by decide) hf (resolve_izx_c1 hp)
  · exact fun hi hp => exec_resolving hi (by decide) hf (resolve_izx_c2 hp)
  · exact fun hi hp => exec_resolving hi (by decide) hf (resolve_izx_c3 hp)
  · have ⟨_, _, hram, _⟩ := hs
    refine ⟨addressingLog m s, length_addressingLog m s, ?_⟩
    rw [run_to_operate hw hi hm hs, ← hram]
    rfl

/-! ## Read-class instructions -/

theorem readOp_of_readResult {v : Byte} {r : Byte × Byte × Byte × Byte} (hi : operandMode i = some m)
    (h : readResult i v s = some r) : ∃ op, readOp i = some (m, op) := by
  cases i <;> simp_all [readResult, readOp, operandMode]

theorem exec_of_readOp {op : Byte → State → State} (h : readOp i = some (m, op)) : exec i s = readInstr m op s := by
  cases i <;> simp only [readOp, Option.some.injEq, Prod.mk.injEq, reduceCtorEq] at h
  all_goals
    obtain ⟨rfl, rfl⟩ := h
    rfl

/-- The computation of a read-class instruction leaves its result in A, X, Y and P, and nothing else. -/
theorem readOp_eq_result {op : Byte → State → State} {v a x y p : Byte} (h : readOp i = some (m, op))
    (hr : readResult i v s = some (a, x, y, p)) : op v s = { s with a := a, x := x, y := y, p := p } := by
  cases i <;> simp only [readOp, Option.some.injEq, Prod.mk.injEq, reduceCtorEq] at h
  all_goals
    obtain ⟨-, rfl⟩ := h
    obtain ⟨rfl, rfl, rfl, rfl⟩ := by simpa [readResult] using hr
    rfl

theorem calls_of_readOp {op : Byte → State → State} (h : readOp i = some (m, op)) : i.calls = m.calls := by
  cases i <;> simp_all [readOp, Instr.calls]

theorem latchOperand_atOperate (hram : s.answers = []) :
    latchOperand (atOperate i m s) = { atOperate i m s with
      compareOperand := readByte s.mem (atOperate i m s).accessAddress.toNat
      busLog := ramRead s.mem (atOperate i m s).accessAddress :: (atOperate i m s).busLog } := by
  have hram' : (atOperate i m s).answers = [] := hram
  rw [latchOperand, operand, busAnswer_of_ram _ _ hram', busRead_of_ram _ hram']
  rfl

/-- Addressing and latching the operand leave A, X, Y and P as they were, so the result is the one from the fetch. -/
theorem readResult_latchOperand_atOperate (v : Byte) :
    readResult i v (latchOperand (atOperate i m s)) = readResult i v s := by
  cases i <;> rfl

/-- Settles O54: the fetch and the resolver run to the Operate part, which latches the operand and leaves the result. -/
theorem readInstructionsEndToEnd : Obligations.ReadInstructionsEndToEnd := by
  unfold Obligations.ReadInstructionsEndToEnd
  intro i m s a x y p hw hi hs hr
  have ⟨_, _, hram, _⟩ := hs
  obtain ⟨op, hop⟩ := readOp_of_readResult hi hr
  have hoperand : operand (atOperate i m s) = readByte s.mem (atOperate i m s).accessAddress.toNat :=
    busAnswer_of_ram _ _ hram
  have hresult : readResult i (readByte s.mem (atOperate i m s).accessAddress.toNat) (latchOperand (atOperate i m s)) =
      some (a, x, y, p) := (readResult_latchOperand_atOperate _).trans hr
  have hrun := run_operate hw hi (fun _ => exec_of_readOp hop) hs rfl
  refine ⟨ramRead s.mem (atOperate i m s).accessAddress :: addressingLog m s, ?_, ?_⟩
  · rw [calls_of_readOp hop, List.length_cons, length_addressingLog]
    cases m <;> rfl
  · rw [calls_of_readOp hop, hrun, hoperand, readOp_eq_result hop hresult, latchOperand_atOperate hram]
    rfl

/-! ## Stores and shifts on memory -/

theorem storeOp_of_storedRegister {v : Byte} (hi : operandMode i = some m) (h : storedRegister i s = some v) :
    ∃ reg, storeOp i = some (m, reg) ∧ ∀ t : State, t.a = s.a → t.x = s.x → t.y = s.y → reg t = v := by
  cases i <;> simp_all [storedRegister, storeOp, operandMode]

theorem calls_of_storeOp {reg : State → Byte} (h : storeOp i = some (m, reg)) : i.calls = m.calls := by
  cases i <;> simp_all [storeOp, Instr.calls]

theorem rmwOp_of_shiftResult {v p r q : Byte} (hi : operandMode i = some m) (h : shiftResult i v p = some (r, q)) :
    ∃ shift flags, rmwOp i = some (m, shift, flags) ∧ shift v p = r ∧ flags v p = q := by
  cases i <;> simp_all [shiftResult, rmwOp, operandMode]

theorem calls_of_rmwOp {shift flags : Byte → Byte → Byte} (h : rmwOp i = some (m, shift, flags)) :
    i.calls = m.calls + 2 := by
  cases i <;> simp_all [rmwOp, Instr.calls]

/-- In the address-ready range a call of a shift on memory is one of its three parts (R115). -/
theorem step_operateRmw {shift flags : Byte → Byte → Byte} (hop : rmwOp i = some (m, shift, flags)) (hx : Executing s)
    (hir : decodeOpcode s.ir = i) (hp : isAddressReady s.phase = true) (hf : s.foundAddress = true) :
    step s = operateRmw shift flags s := by
  have hidle : s.phase ≠ .idle := by
    rintro hidle
    simp [hidle, isAddressReady] at hp
  rw [step_decoded hx hir hidle, exec_of_rmwOp hop, rmwInstr, withOperand_ready hp hf]

/-- The two write-back parts: the shift with its flags, then the store (R115). -/
theorem run_writeback {shift flags : Byte → Byte → Byte} (hop : rmwOp i = some (m, shift, flags)) (hx : Executing s)
    (hir : decodeOpcode s.ir = i) (hp : s.phase = .writeback1) (hf : s.foundAddress = true) :
    run 2 s = .next { done (busWrite s s.accessAddress (shift s.compareOperand s.p)) with
      compareOperand := shift s.compareOperand s.p, p := flags s.compareOperand s.p } := by
  have hcompute : step s = .next (goto .writeback2
      { s with compareOperand := shift s.compareOperand s.p, p := flags s.compareOperand s.p }) := by
    rw [step_operateRmw hop hx hir (by rw [hp]; rfl) hf]
    simp [operateRmw, hp]
  exact (run_succ 1 hcompute).trans (run_succ 0 (step_operateRmw hop hx hir rfl hf))

/-- Settles O55: the fetch and the resolver run to the Operate part, which stores the register, or latches the operand
for the shift and the store of the two write-back parts. -/
theorem memoryWritersEndToEnd : Obligations.MemoryWritersEndToEnd := by
  unfold Obligations.MemoryWritersEndToEnd
  intro i m s hw hi hs
  have ⟨hx, _, hram, _⟩ := hs
  refine ⟨fun v hv => ?_, fun r p hr => ?_⟩
  · obtain ⟨reg, hop, hreg⟩ := storeOp_of_storedRegister hi hv
    have hrun := run_operate hw hi (fun _ => exec_of_storeOp hop) hs rfl
    rw [hreg (atOperate i m s) rfl rfl rfl] at hrun
    exact ⟨addressingLog m s, calls_of_storeOp hop ▸ hrun⟩
  · obtain ⟨shift, flags, hop, rfl, rfl⟩ := rmwOp_of_shiftResult hi hr
    have hread := run_operate hw hi (fun _ => exec_of_rmwOp hop) hs rfl
    have hwrite := run_writeback (s := goto .writeback1 (latchOperand (atOperate i m s))) hop hx
      (decodeOfEncodeIsIdentity i hw) rfl rfl
    refine ⟨ramRead s.mem (atOperate i m s).accessAddress :: addressingLog m s, ?_⟩
    rw [calls_of_rmwOp hop, run_add hread, hwrite, latchOperand_atOperate hram]
    rfl

end Sys2Proof.Proofs
end

section
/-! PROOFS. The flag logic against numbers (spec/40_core_cycle.md R120 to R125): what each flag function writes, bit by bit,
and the sums, differences and shifts as exact integers. -/

namespace Sys2Proof.Proofs

open Sys2Proof.Machine Sys2Proof.Laws

/-! ## set_NZ, compare and bit_test -/

/-- Settles O8: ZER and NEG as written, every other flag by what set_NZ leaves alone. -/
theorem setNZFlags : Obligations.SetNZFlags := by
  unfold Obligations.SetNZFlags
  intro r p f
  cases f with
  | zer => simp [setNZ, getFlag_setFlag]
  | neg => simp [setNZ, BitVec.msb_eq_getLsbD_last]
  | _ => exact getFlag_setNZ (by decide) (by decide) r p

/-- Settles O9: the difference is zero exactly for equal operands. -/
theorem compareSetsFlags : Obligations.CompareSetsFlags := by
  unfold Obligations.CompareSetsFlags
  intro r m p f
  cases f with
  | zer =>
    have hzero : getFlag .zer (compareFlags r m p) = (r - m == 0) := by simp [compareFlags, getFlag_setFlag]
    rw [hzero, Bool.eq_iff_iff, beq_iff_eq, beq_iff_eq]
    exact sub_eq_zero
  | car => simp [compareFlags, getFlag_setFlag]
  | neg => simp [compareFlags, BitVec.msb_eq_getLsbD_last]
  | _ => exact getFlag_compareFlags (by decide) (by decide) (by decide) r m p

/-- Settles O13: ZER, NEG and OVR as written, every other flag by what bit_test leaves alone. -/
theorem bitTestSetsFlags : Obligations.BitTestSetsFlags := by
  unfold Obligations.BitTestSetsFlags
  intro a m p f
  cases f with
  | zer | neg | ovr => simp [bitTestFlags, getFlag_setFlag]
  | _ => exact getFlag_bitTestFlags (by decide) (by decide) (by decide) a m p

/-! ## Shifts -/

theorem toNat_asl8 (v : Byte) : (asl8 v).toNat = (2 * v.toNat) % 256 := by
  simp [asl8, BitVec.toNat_shiftLeft, Nat.shiftLeft_eq, Nat.mul_comm]

/-- The old carry goes into the bit that the shift leaves 0. -/
theorem rol8_eq_add (v p : Byte) : rol8 v p = asl8 v + (BitVec.ofBool (getFlag .car p)).setWidth 8 := by
  refine (BitVec.add_eq_or_of_and_eq_zero _ _ (BitVec.eq_of_getLsbD_eq fun n hn => ?_)).symm
  cases n <;> simp

theorem toNat_rol8 (v p : Byte) : (rol8 v p).toNat = (2 * v.toNat) % 256 + (if getFlag .car p then 1 else 0) := by
  rw [rol8_eq_add, BitVec.toNat_add, toNat_asl8]
  cases getFlag .car p
  · simp
  · simp
    omega

/-- Settles O12: the results by their arithmetic, CAR the bit shifted out, ZER and NEG by set_NZ. -/
theorem shiftFunctionsAreExact : Obligations.ShiftFunctionsAreExact := by
  unfold Obligations.ShiftFunctionsAreExact
  intro v p
  refine ⟨toNat_asl8 v, toNat_rol8 v p, fun f => ?_, fun f => ?_⟩
  · cases f with
    | car => simp [asl8Flags, getFlag_setNZ, BitVec.msb_eq_getLsbD_last]
    | zer | neg => exact setNZFlags ..
    | _ => exact getFlag_asl8Flags (by decide) (by decide) (by decide) v p
  · cases f with
    | car => simp [rol8Flags, getFlag_setNZ, BitVec.msb_eq_getLsbD_last]
    | zer | neg => exact setNZFlags ..
    | _ => exact getFlag_rol8Flags (by decide) (by decide) (by decide) v p

/-! ## add8 and sub8 against exact integers -/

/-- The carry into an addition, as a number (R122). -/
def carryIn (p : Byte) : Nat := if getFlag .car p then 1 else 0

theorem carryIn_le_one (p : Byte) : carryIn p ≤ 1 := by
  unfold carryIn
  split <;> decide

/-- Nine bits hold the sum and its carry (R122). -/
theorem toNat_addSum (a m p : Byte) : (addSum a m p).toNat = a.toNat + m.toNat + carryIn p := by
  have ha := a.isLt
  have hm := m.isLt
  have hc1 := carryIn_le_one p
  have hc : ((BitVec.ofBool (getFlag .car p)).setWidth 9).toNat = carryIn p := by
    unfold carryIn
    cases getFlag .car p <;> rfl
  have hwide (b : Byte) : (b.setWidth 9).toNat = b.toNat := BitVec.toNat_setWidth_of_le (by decide)
  rw [addSum, BitVec.toNat_add, BitVec.toNat_add, hwide, hwide, hc]
  omega

theorem toNat_add8 (a m p : Byte) : (add8 a m p).toNat = (a.toNat + m.toNat + carryIn p) % 256 := by
  rw [add8, BitVec.toNat_setWidth, toNat_addSum]

/-- The carry out is bit 8 of the sum (R122). -/
theorem getFlag_car_add8Flags (a m p : Byte) :
    getFlag .car (add8Flags a m p) = decide (256 ≤ a.toNat + m.toNat + carryIn p) := by
  have hcar : getFlag .car (add8Flags a m p) = (addSum a m p).msb := by
    simp [add8Flags, getFlag_setNZ, getFlag_setFlag, BitVec.msb_eq_getLsbD_last]
  rw [hcar, BitVec.msb_eq_decide, toNat_addSum]

theorem getFlag_ovr_add8Flags (a m p : Byte) :
    getFlag .ovr (add8Flags a m p) = ((a ^^^ add8 a m p) &&& (m ^^^ add8 a m p)).getLsbD 7 := by
  simp [add8Flags, getFlag_setNZ, BitVec.msb_eq_getLsbD_last]

/-- Operands of one sign, and a result of the other (R122). -/
theorem signFormula_iff (a m r : Byte) :
    ((a ^^^ r) &&& (m ^^^ r)).getLsbD 7 = true ↔
      ¬(128 ≤ a.toNat ↔ 128 ≤ r.toNat) ∧ ¬(128 ≤ m.toNat ↔ 128 ≤ r.toNat) := by
  have hbit (b : Byte) : b.getLsbD 7 = decide (128 ≤ b.toNat) :=
    (BitVec.msb_eq_getLsbD_last b).symm.trans (BitVec.msb_eq_decide b)
  rw [BitVec.getLsbD_and, BitVec.getLsbD_xor, BitVec.getLsbD_xor, hbit, hbit, hbit]
  simp

/-- The sign formula of R122 is signed overflow. -/
theorem signFormula_iff_overflow (a m p : Byte) :
    ((a ^^^ add8 a m p) &&& (m ^^^ add8 a m p)).getLsbD 7 = true ↔
      a.toInt + m.toInt + carryIn p < -128 ∨ 127 < a.toInt + m.toInt + carryIn p := by
  have ha := a.isLt
  have hm := m.isLt
  have hc := carryIn_le_one p
  rw [signFormula_iff, toNat_add8, BitVec.toInt_eq_toNat_cond, BitVec.toInt_eq_toNat_cond]
  omega

/-- Settles O10: the sum by its nine bits, CAR and OVR by their own lemmas, ZER and NEG by set_NZ. -/
theorem add8IsExactAddition : Obligations.Add8IsExactAddition := by
  unfold Obligations.Add8IsExactAddition
  intro a m p c r
  refine ⟨toNat_add8 a m p, fun f => ?_, signFormula_iff_overflow a m p⟩
  cases f with
  | car => exact getFlag_car_add8Flags a m p
  | ovr => exact getFlag_ovr_add8Flags a m p
  | zer | neg => exact setNZFlags ..
  | _ => exact getFlag_add8Flags (by decide) (by decide) (by decide) (by decide) a m p

/-- In two's complement the complement of m is -1 - m. -/
theorem toInt_not (m : Byte) : (~~~m).toInt = -1 - m.toInt := by
  have hm := m.isLt
  rw [BitVec.toInt_eq_toNat_cond, BitVec.toInt_eq_toNat_cond, BitVec.toNat_not]
  omega

/-- Settles O11: sub8 adds the complement, which is 255 - m unsigned and -1 - m signed, so its carry out is no borrow. -/
theorem sub8IsExactSubtraction : Obligations.Sub8IsExactSubtraction := by
  unfold Obligations.Sub8IsExactSubtraction
  intro a m p borrow r
  have hm : (~~~m).toNat = 255 - m.toNat := BitVec.toNat_not
  have hlt := m.isLt
  have hborrow : borrow = 1 - (carryIn p : Int) := by
    unfold borrow carryIn
    split <;> rfl
  refine ⟨?_, fun f => ?_⟩
  · have hr := toNat_add8 a (~~~m) p
    rw [hm] at hr
    unfold r
    rw [sub8, hr, hborrow]
    omega
  cases f with
  | car =>
    refine (getFlag_car_add8Flags a (~~~m) p).trans (decide_eq_decide.2 ?_)
    omega
  | ovr =>
    refine (getFlag_ovr_add8Flags a (~~~m) p).trans (Bool.eq_iff_iff.2 ?_)
    rw [signFormula_iff_overflow, toInt_not, decide_eq_true_iff]
    omega
  | zer | neg => exact setNZFlags ..
  | _ => exact getFlag_add8Flags (by decide) (by decide) (by decide) (by decide) a (~~~m) p

end Sys2Proof.Proofs
end

section
/-! PROOFS. The scheduler (spec/40_core_cycle.md R100 to R104): a step is one call of the decoded instruction, the first of
them the fetch, and a call changes memory only where it stores (R114, R115, R17). -/

namespace Sys2Proof.Proofs

open Sys2Proof.Machine Sys2Proof.Laws Sys2Proof.Claims

/-- Settles O5: between instructions a step is the fetch step, which takes the byte at PC and its fields. -/
theorem fetchStepEffect : Obligations.FetchStepEffect := by
  unfold Obligations.FetchStepEffect
  intro s hx hp opcode
  obtain ⟨hrun, hbound, hdelay⟩ := hx
  exact step_fetch hrun hbound hdelay hp

/-- Settles O6: the current instruction is the one at PC or the one in IR, and every byte decodes to a row of the
table. -/
theorem stepRunsDecodedInstruction : Obligations.StepRunsDecodedInstruction := by
  unfold Obligations.StepRunsDecodedInstruction
  intro s hx
  obtain ⟨hrun, hbound, hdelay⟩ := hx
  refine ⟨fun hp => ⟨?_, decodeOpcode_wf _⟩, fun hp => ⟨step_execute hrun hbound hdelay hp, decodeOpcode_wf _⟩⟩
  have hcurrent : currentOpcode s = busAnswer s s.pc := if_pos hp
  rw [step_executing hrun hbound hdelay, currentInstr, hcurrent]

/-- Settles O39: a call does at the bus port the store that is listed, or none. -/
theorem memoryChangesOnlyWhereStored : Obligations.MemoryChangesOnlyWhereStored := by
  unfold Obligations.MemoryChangesOnlyWhereStored
  intro i s t hw hm h
  refine ⟨fun addr v hs => ?_, fun hs addr => ?_⟩
  · have hmem : t.mem = writeByte s.mem addr.toNat v := (exec_bus_of_stores hw hs h).mem
    rw [hmem]
    exact ⟨readByte_writeByte_same _ _ _ hm, fun other => readByte_writeByte_other _ _ other v⟩
  · cases exec_bus hw h with
    | store addr' v hs' hbus => simp [hs] at hs'
    | read addr' hs' hr hbus | silent hs' hr hbus => rw [show t.mem = s.mem from hbus.mem]

end Sys2Proof.Proofs
end

section
/-! PROOFS. The calls of an instruction (spec/70_reset_and_hazards.md R340, spec/40_core_cycle.md R104): an instruction that
is no branch goes through its phases one by one, whatever the host answers, so that each call leaves one call fewer, and
none is left exactly between instructions. -/

namespace Sys2Proof.Proofs

open Sys2Proof.Machine Sys2Proof.Laws Sys2Proof.Claims

variable {i : Instr} {s t : State} {m : Mode} {c d : Phase}

/-! ## The phases in order -/

/-- The phases in which the calls after the fetch begin, in order: all the instruction has a part for, but that in
immediate mode the Operate part runs within the resolving call (R107). -/
def schedule (i : Instr) : List Phase := if operandMode i = some .imm then [.c1] else busyPhases i

/-- The calls to come at phase `c` of a schedule. -/
def callsLeft (l : List Phase) (c : Phase) : Nat := l.length - l.idxOf c

/-- Phase `d` is the next after `c` in a schedule: one call fewer is to come, and `d` is of the schedule or ends it. -/
abbrev Follows (l : List Phase) (c d : Phase) : Prop :=
  callsLeft l c = callsLeft l d + 1 ∧ (d = .idle ∨ d ∈ l)

theorem schedule_of_operandMode_none (h : operandMode i = none) : schedule i = busyPhases i := by
  simp [schedule, h]

theorem schedule_of_ne_imm (h : operandMode i = some m) (hm : m ≠ .imm) : schedule i = busyPhases i := by
  simp [schedule, h, hm]

theorem schedule_of_imm (h : operandMode i = some .imm) : schedule i = [.c1] := by
  simp [schedule, h]

theorem schedule_of_storeOp {reg : State → Byte} (hw : i.wf = true) (hi : storeOp i = some (m, reg)) :
    schedule i = accessPhases m := by
  rw [schedule_of_ne_imm (operandMode_of_storeOp hi) (storeOp_wf hw hi), busyPhases_of_storeOp hi]

theorem schedule_of_rmwOp {shift flags : Byte → Byte → Byte} (hw : i.wf = true)
    (hi : rmwOp i = some (m, shift, flags)) : schedule i = rmwPhases m := by
  rw [schedule_of_ne_imm (operandMode_of_rmwOp hi) (rmwOp_wf hw hi), busyPhases_of_rmwOp hi]

theorem idle_not_mem_schedule (i : Instr) : .idle ∉ schedule i := by
  have haccess (m : Mode) : .idle ∉ accessPhases m := by cases m <;> decide
  have hrmw (m : Mode) : .idle ∉ rmwPhases m := by cases m <;> decide
  unfold schedule
  split
  · decide
  · cases i <;> simp [busyPhases, haccess, hrmw]

/-- Calls are to come exactly within an instruction. -/
theorem callsLeft_pos_iff {l : List Phase} : 0 < callsLeft l c ↔ c ∈ l := by
  rw [callsLeft, Nat.sub_pos_iff_lt, List.idxOf_lt_length_iff]

theorem callsLeft_idle (i : Instr) : callsLeft (schedule i) .idle = 0 :=
  Nat.eq_zero_of_not_pos fun h => idle_not_mem_schedule i (callsLeft_pos_iff.1 h)

/-- R340's table counts the fetch and the calls after it. -/
theorem calls_eq_callsLeft (hw : i.wf = true) (hb : isBranch i = false) : i.calls = callsLeft (schedule i) .c1 + 1 := by
  cases i with
  | ora m | and m | eor m | adc m | sta m | lda m | cmp m | sbc m | ldx m | ldy m | stx m | sty m | cpx m | cpy m
  | bit m => cases m <;> rfl
  | asl m | rol m =>
    rcases zp_or_abs_of_isZpOrAbs hw with rfl | rfl <;> rfl
  | bpl | bmi | bvc | bvs | bcc | bcs | bne | beq => exact absurd hb (by decide)
  | _ => rfl

/-- The fetch leaves the first phase of the schedule. -/
theorem c1_mem_schedule (i : Instr) : .c1 ∈ schedule i := by
  unfold schedule
  split
  · exact .head _
  · exact c1_mem_busyPhases i

/-! ## A call goes on to the next phase -/

/-- A call from `c` to the next phase `d` of a schedule written out. -/
theorem follows_of_schedule {l : List Phase} (hl : schedule i = l) (hp : s.phase = c) (d : Phase) (hq : t.phase = d)
    (h : Follows l c d) : Follows (schedule i) s.phase t.phase := by
  rw [hl, hp, hq]
  exact h

theorem resolve_follows (hi : operandMode i = some m) (hm : m ≠ .imm) (hf : s.foundAddress = false)
    (h : resolve m s = some t) : Follows (schedule i) s.phase t.phase := by
  rw [schedule_of_ne_imm hi hm]
  refine ⟨?_, .inr (mem_busyPhases_of_operandMode hi (resolve_next hf h).1)⟩
  have hbusy : busyPhases i = accessPhases m ∨ busyPhases i = rmwPhases m := by
    cases i <;> simp_all [operandMode, busyPhases]
  rcases resolve_cases h with ⟨rfl, -, -⟩ | ⟨rfl, hp, rfl⟩ | ⟨rfl | rfl, hp, rfl⟩ | ⟨rfl, hp, rfl⟩ | ⟨rfl, hp, rfl⟩ |
    ⟨rfl, hp, rfl⟩ | ⟨rfl, hp, rfl⟩ | ⟨rfl, hp, rfl⟩
  case inl => exact absurd rfl hm
  all_goals rcases hbusy with hbusy | hbusy <;> rw [hp, hbusy] <;> rfl

/-- The Operate part ends a read-class or store-class instruction. -/
theorem operate_follows_idle (hm : m ≠ .imm) : Follows (accessPhases m) .operate .idle := by
  cases m with
  | imm => exact absurd rfl hm
  | _ => decide

/-- Every call after the fetch of an instruction that is no branch, and does not hang, goes on to the next of its
phases. -/
theorem exec_follows (hw : i.wf = true) (hb : isBranch i = false) (hk : s.cfg.unmodelled ≠ .hang)
    (hp : s.phase ∈ schedule i) (h : exec i s = .next t) : Follows (schedule i) s.phase t.phase := by
  cases exec_effect h with
  | fetch hp' => exact absurd (hp' ▸ hp) (idle_not_mem_schedule i)
  | resolving m t hi hf hr hm => exact resolve_follows hi hm hf hr
  | readImm op u hi hp' hf hu =>
    exact follows_of_schedule (schedule_of_imm (operandMode_of_readOp hi)) hp' .idle rfl (by decide)
  | read m op hi hp' hf =>
    have hmode := operandMode_of_readOp hi
    have hm : m ≠ .imm := by
      rintro rfl
      simp [schedule_of_imm hmode, hp'] at hp
    have hl := (schedule_of_ne_imm hmode hm).trans (busyPhases_of_readOp hi)
    exact follows_of_schedule hl hp' .idle rfl (operate_follows_idle hm)
  | store m reg hi hp' hf =>
    exact follows_of_schedule (schedule_of_storeOp hw hi) hp' .idle rfl (operate_follows_idle (storeOp_wf hw hi))
  | rmwRead m shift flags hi hp' hf =>
    exact follows_of_schedule (schedule_of_rmwOp hw hi) hp' .writeback1 rfl (by cases m <;> decide)
  | rmwCompute m shift flags hi hp' hf =>
    exact follows_of_schedule (schedule_of_rmwOp hw hi) hp' .writeback2 rfl (by cases m <;> decide)
  | rmwWrite m shift flags hi hp' hf =>
    exact follows_of_schedule (schedule_of_rmwOp hw hi) hp' .idle rfl (by cases m <;> decide)
  | storeImm reg u hi hp' hu => exact absurd rfl (storeOp_wf hw hi)
  | rmwImm shift flags u hi hp' hu => exact absurd rfl (rmwOp_wf hw hi)
  | oneCall f hi hp' =>
    obtain ⟨hbusy, hmode⟩ := phases_of_oneCallOp hi
    exact follows_of_schedule ((schedule_of_operandMode_none hmode).trans hbusy) hp' .idle rfl (by decide)
  | halting trap hi hp' =>
    obtain ⟨hbusy, hmode⟩ := phases_of_haltOp hi
    have hidle : (trap s).phase = .idle := by
      cases i <;> simp only [haltOp, Option.some.injEq, reduceCtorEq] at hi <;> subst hi <;> rfl
    exact follows_of_schedule ((schedule_of_operandMode_none hmode).trans hbusy) hp' .idle hidle (by decide)
  | unmodelledNop hi hp' hk' | unmodelledHalt hi hp' hk' =>
    obtain ⟨hbusy, hmode⟩ := phases_of_unmodelled hi
    exact follows_of_schedule ((schedule_of_operandMode_none hmode).trans hbusy) hp' .idle rfl (by decide)
  | unmodelledHang hi hp' hk' => exact absurd hk' hk
  | branchTaken taken hi hp' hk' | branchNotTaken taken hi hp' hk' | branchCross taken hi hp' hk'
  | branchSamePage taken hi hp' hk' | branchFixPage taken hi hp' =>
    simp [isBranch_of_branchOp hi] at hb
  | jsr1 hi hp' | rts1 hi hp' | jmpAbs1 hi hp' | jmpInd1 hi hp' =>
    subst hi
    exact follows_of_schedule rfl hp' .c2 rfl (by decide)
  | jsr2 hi hp' | rts2 hi hp' | jmpInd2 hi hp' =>
    subst hi
    exact follows_of_schedule rfl hp' .c3 rfl (by decide)
  | jsr3 hi hp' | jmpInd3 hi hp' =>
    subst hi
    exact follows_of_schedule rfl hp' .c4 rfl (by decide)
  | jmpInd4 hi hp' =>
    subst hi
    exact follows_of_schedule rfl hp' .c5 rfl (by decide)
  | jsr4 hi hp' | rts3 hi hp' | jmpAbs2 hi hp' | jmpInd5 hi hp' =>
    subst hi
    exact follows_of_schedule rfl hp' .idle rfl (by decide)

/-! ## The run of an instruction -/

/-- An execute call of `i`, which does not hang, is due. -/
structure CallDue (i : Instr) (s : State) : Prop where
  executing : Executing s
  decoded : decodeOpcode s.ir = i
  advances : s.cfg.unmodelled ≠ .hang
  scheduled : s.phase ∈ schedule i
  part : InPart i s

theorem CallDue.not_idle (hs : CallDue i s) : s.phase ≠ .idle := by
  intro hp
  exact idle_not_mem_schedule i (hp ▸ hs.scheduled)

/-- The step answers, with one call fewer to come, and another call is due if it does not end the instruction. -/
theorem CallDue.step_follows (hs : CallDue i s) (hb : isBranch i = false) :
    ∃ t, step s = .next t ∧ callsLeft (schedule i) s.phase = callsLeft (schedule i) t.phase + 1 ∧
      (t.phase = .idle ∨ CallDue i t) := by
  have hw : i.wf = true := hs.decoded ▸ decodeOpcode_wf s.ir
  obtain ⟨t, h⟩ := exec_answers_of_inPart hs.part
  obtain ⟨hleft, hnext⟩ := exec_follows hw hb hs.advances hs.scheduled h
  refine ⟨t, (step_decoded hs.executing hs.decoded hs.not_idle).trans h, hleft, ?_⟩
  refine or_iff_not_imp_left.2 fun hp => ?_
  obtain ⟨hrun, hbound, hdelay⟩ := hs.executing
  have frame := exec_frame h
  obtain ⟨hir, -⟩ := frame.latched hs.not_idle
  obtain ⟨hdelay', hcfg, hread, hwrite⟩ := frame.fixed
  exact {
    executing := ⟨((exec_isRunning_or_idle h).resolve_right hp).trans hrun, by rw [busBound, hread, hwrite]; exact hbound,
      hdelay'.trans hdelay⟩
    decoded := hir ▸ hs.decoded
    advances := hcfg ▸ hs.advances
    scheduled := hnext.resolve_left hp
    part := exec_keeps_inPart h hs.part }

/-- From a call that is due the core is between instructions after the calls to come, and not before. -/
theorem CallDue.run_callsLeft (hb : isBranch i = false) (k : Nat) (hs : CallDue i s) (hk : k ≤ callsLeft (schedule i) s.phase) :
    ∃ t, run k s = .next t ∧ (t.phase = .idle ↔ k = callsLeft (schedule i) s.phase) := by
  induction k generalizing s with
  | zero =>
    have hpos := callsLeft_pos_iff.2 hs.scheduled
    exact ⟨s, run_zero, iff_of_false hs.not_idle (by omega)⟩
  | succ k ih =>
    obtain ⟨u, hstep, hleft, hu⟩ := hs.step_follows hb
    rw [run_succ k hstep, hleft, Nat.add_right_cancel_iff]
    rcases hu with hp | hu
    · rw [hp, callsLeft_idle] at hleft ⊢
      obtain rfl : k = 0 := by omega
      exact ⟨u, run_zero, iff_of_true hp rfl⟩
    · exact ih hu (by omega)

/-- The fetch of a well-formed instruction leaves its first execute call due (R102). -/
theorem callDue_fetchStep (hw : i.wf = true) (hx : Executing s) (hop : busAnswer s s.pc = encode i)
    (hk : s.cfg.unmodelled ≠ .hang) : CallDue i (fetchStep s) where
  executing := hx
  decoded := (congrArg decodeOpcode hop).trans (decodeOfEncodeIsIdentity i hw)
  advances := hk
  scheduled := c1_mem_schedule i
  part := .inr ⟨c1_mem_busyPhases i, rfl⟩

/-- Settles O60: the fetch, and the run of the calls that are due after it. -/
theorem instructionTakesItsCalls : Obligations.InstructionTakesItsCalls := by
  unfold Obligations.InstructionTakesItsCalls
  intro i s hw hb hx hp hop hk
  have ⟨hrun, hbound, hdelay⟩ := hx
  have hfetch : step s = .next (fetchStep s) := step_fetch hrun hbound hdelay hp
  have hdue := callDue_fetchStep hw hx hop hk
  rw [calls_eq_callsLeft hw hb]
  refine ⟨?_, fun k hpos hlt => ?_⟩
  · obtain ⟨t, ht, hidle⟩ := hdue.run_callsLeft hb _ le_rfl
    exact ⟨t, (run_succ _ hfetch).trans ht, hidle.2 rfl⟩
  · obtain ⟨k, rfl⟩ := Nat.exists_eq_succ_of_ne_zero hpos.ne'
    have hk : k < callsLeft (schedule i) (fetchStep s).phase := Nat.lt_of_succ_lt_succ hlt
    obtain ⟨t, ht, hidle⟩ := hdue.run_callsLeft hb k hk.le
    exact ⟨t, (run_succ k hfetch).trans ht, fun hp' => hk.ne (hidle.1 hp')⟩

end Sys2Proof.Proofs
end

section
/-! PROOFS. The Operate part of the read-class and store-class instructions, and the one execute call of the instructions
that use no operand (spec/40_core_cycle.md R113, R114; spec/41_accumulator_group.md R140 to R151;
spec/47_index_load_store_compare.md R235 to R242): the next state of the call that completes the instruction, said once for
each class from its table. -/

namespace Sys2Proof.Proofs

open Sys2Proof.Machine Sys2Proof.Laws Sys2Proof.Claims

variable {i : Instr} {s : State} {m : Mode}

/-! ## Read-class instructions -/

/-- The Operate part is due with the operand's address found: in immediate mode the resolving step has just taken it
from PC (R107), in the others it stands in access_address. -/
def operandAddressed (m : Mode) (s : State) : State :=
  { s with
    accessAddress := operandAddr m s
    pc := if m = .imm then s.pc + 1 else s.pc
    foundAddress := true
    phase := .operate }

theorem withOperand_of_operandReady (operate : State → Host.Outcome State Fault Refusal) (hs : OperandReady m s) :
    withOperand m operate s = operate (operandAddressed m s) := by
  rcases hs with ⟨rfl, hp, hf⟩ | ⟨hm, hp, hf⟩
  · exact withOperand_imm hp hf
  · have haddressed : operandAddressed m s = s := by
      rw [operandAddressed, operandAddr, if_neg hm, if_neg hm, ← hp, ← hf]
    rw [haddressed, withOperand_ready (by rw [hp]; rfl) hf]

/-- Addressing and latching the operand leave A, X, Y and P as they were, so the result is the one from before. -/
theorem readResult_latchOperand_operandAddressed (v : Byte) :
    readResult i v (latchOperand (operandAddressed m s)) = readResult i v s := by
  cases i <;> rfl

/-- The call that completes a read-class instruction leaves its result in A, X, Y and P (R107, R113). -/
theorem exec_read_of_operandReady {op : Byte → State → State} {a x y p : Byte} (hi : readOp i = some (m, op))
    (hs : OperandReady m s) (hr : readResult i (operandByte m s) s = some (a, x, y, p)) :
    exec i s = .next { afterOperand m s with a := a, x := x, y := y, p := p } := by
  have hresult : readResult i (operandByte m s) (latchOperand (operandAddressed m s)) = some (a, x, y, p) :=
    (readResult_latchOperand_operandAddressed _).trans hr
  rw [exec_of_readOp hi, readInstr, withOperand_of_operandReady _ hs]
  exact congrArg (fun t => Host.Outcome.next (done t)) (readOp_eq_result hi hresult)

/-- Settles O14: each is its row of `readResult`, in every mode. -/
theorem logicComplete : Obligations.LogicComplete := by
  unfold Obligations.LogicComplete
  refine ⟨by decide, by decide, by decide, fun m s hs => ⟨?_, ?_, ?_⟩⟩
  all_goals exact exec_read_of_operandReady rfl hs rfl

/-- The sum reads CAR alone of P, so DEC does not matter (R151). -/
theorem add8_setFlag_dec (a b p : Byte) (d : Bool) : add8 a b (setFlag .dec d p) = add8 a b p := by
  have hcar : getFlag .car (setFlag .dec d p) = getFlag .car p := getFlag_setFlag_other .dec .car d p (by decide)
  rw [add8, addSum, hcar, add8, addSum]

/-- Settles O15: ADC and SBC are their rows of `readResult`, and sub8 is add8 of the complement whatever DEC holds. -/
theorem addSubtractComplete : Obligations.AddSubtractComplete := by
  unfold Obligations.AddSubtractComplete
  refine ⟨by decide, by decide, fun a b p d => ⟨?_, ?_⟩, fun m s hs => ⟨?_, ?_⟩⟩
  · exact add8_setFlag_dec a b p d
  · exact add8_setFlag_dec a (~~~b) p d
  all_goals exact exec_read_of_operandReady rfl hs rfl

/-- Settles O16: each is its row of `readResult`, in every mode. -/
theorem loadsComplete : Obligations.LoadsComplete := by
  unfold Obligations.LoadsComplete
  refine ⟨by decide, by decide, by decide, fun m s hs => ⟨?_, ?_, ?_⟩⟩
  all_goals exact exec_read_of_operandReady rfl hs rfl

/-- Settles O17: each is its row of `readResult`, which leaves A, X and Y as they were. -/
theorem comparesAndBitComplete : Obligations.ComparesAndBitComplete := by
  unfold Obligations.ComparesAndBitComplete
  refine ⟨by decide, by decide, by decide, by decide, fun m s hs => ⟨?_, ?_, ?_, ?_⟩⟩
  all_goals exact exec_read_of_operandReady rfl hs rfl

/-! ## Store-class instructions -/

/-- The call that completes a store writes its register at the address found (R114). -/
theorem exec_store_of_operate {reg : State → Byte} (hi : storeOp i = some (m, reg)) (hp : s.phase = .operate)
    (hf : s.foundAddress = true) : exec i s = .next (done (busWrite s s.accessAddress (reg s))) := by
  rw [exec_of_storeOp hi, storeInstr, withOperand_ready (by rw [hp]; rfl) hf, operateStore, hp]

/-- Settles O18: each is the store of its own register. -/
theorem storesComplete : Obligations.StoresComplete := by
  unfold Obligations.StoresComplete
  refine ⟨by decide, by decide, by decide, fun m s hp hf => ⟨?_, ?_, ?_⟩⟩
  all_goals exact exec_store_of_operate rfl hp hf

/-! ## Instructions of one execute call -/

theorem exec_of_oneCallOp {op : State → State} (h : oneCallOp i = some op) : exec i s = oneCallInstr op s := by
  cases i <;> simp only [oneCallOp, Option.some.injEq, reduceCtorEq] at h
  all_goals
    subst h
    rfl

/-- The one execute call of a 2-call instruction completes it. -/
theorem exec_oneCall_of_c1 {op : State → State} (h : oneCallOp i = some op) (hp : s.phase = .c1) :
    exec i s = .next (done (op s)) := by
  rw [exec_of_oneCallOp h, oneCallInstr, hp]

/-- Settles O19: 0x89 is a 2-call instruction, whose row of `oneCallOp` has no bus access. -/
theorem staImmediateSlotComplete : Obligations.StaImmediateSlotComplete := by
  unfold Obligations.StaImmediateSlotComplete
  exact ⟨by decide, fun s hp => (exec_oneCall_of_c1 (i := .nopStaImm) rfl hp :)⟩

theorem exec_of_isUnmodelled (h : isUnmodelled i = true) : exec i s = unmodelledStep s := by
  cases i <;> simp only [isUnmodelled, Bool.false_eq_true] at h
  all_goals rfl

/-- Settles O20: every unmodelled-mode instruction is the one step that looks at the policy (R150). -/
theorem unmodelledModesFollowPolicy : Obligations.UnmodelledModesFollowPolicy := by
  unfold Obligations.UnmodelledModesFollowPolicy
  intro i s hi hp
  rw [exec_of_isUnmodelled hi, unmodelledStep, hp]
  cases s.cfg.unmodelled <;> rfl

end Sys2Proof.Proofs
end

section
/-! PROOFS. The shift group: the one execute call on A, and the read, compute and write calls on memory
(spec/42_shift_group.md R171 to R174, spec/40_core_cycle.md R115). -/

namespace Sys2Proof.Proofs

open Sys2Proof.Machine Sys2Proof.Claims Sys2Proof.Laws

variable {i : Instr} {m : Mode} {s : State} {shift flags : Byte → Byte → Byte}

/-- Once the address is found, a shift on memory is in its own three parts (R115). -/
theorem exec_rmw_of_found (hi : rmwOp i = some (m, shift, flags)) (hp : isAddressReady s.phase = true)
    (hf : s.foundAddress = true) : exec i s = operateRmw shift flags s := by
  rw [exec_of_rmwOp hi, rmwInstr, withOperand_ready hp hf]

/-- Operate reads the byte at the address found and latches it. -/
theorem exec_rmw_of_operate (hi : rmwOp i = some (m, shift, flags)) (hp : s.phase = .operate)
    (hf : s.foundAddress = true) : exec i s = .next (goto .writeback1 (latchOperand s)) := by
  rw [exec_rmw_of_found hi (by rw [hp]; rfl) hf, operateRmw, hp]

/-- Writeback1 shifts the latched byte and sets the flags, without the bus. -/
theorem exec_rmw_of_writeback1 (hi : rmwOp i = some (m, shift, flags)) (hp : s.phase = .writeback1)
    (hf : s.foundAddress = true) :
    exec i s = .next (goto .writeback2
      { s with compareOperand := shift s.compareOperand s.p, p := flags s.compareOperand s.p }) := by
  rw [exec_rmw_of_found hi (by rw [hp]; rfl) hf, operateRmw, hp]

/-- Writeback2 writes the shifted byte at the address found and completes. -/
theorem exec_rmw_of_writeback2 (hi : rmwOp i = some (m, shift, flags)) (hp : s.phase = .writeback2)
    (hf : s.foundAddress = true) : exec i s = .next (done (busWrite s s.accessAddress s.compareOperand)) := by
  rw [exec_rmw_of_found hi (by rw [hp]; rfl) hf, operateRmw, hp]

/-- Settles O21: on A each is its row of `oneCallOp`, on memory its row of `rmwOp` in each of the three parts. -/
theorem shiftsComplete : Obligations.ShiftsComplete := by
  unfold Obligations.ShiftsComplete
  refine ⟨by decide, by decide, by decide, by decide, fun s hp => ⟨?aslA, ?rolA⟩, fun m s hf =>
    ⟨fun hp => ⟨?aslRead, ?rolRead⟩, fun hp => ⟨?aslCompute, ?rolCompute⟩, fun hp => ⟨?aslWrite, ?rolWrite⟩⟩⟩
  case aslA => exact exec_oneCall_of_c1 (i := .aslA) rfl hp
  case rolA => exact exec_oneCall_of_c1 (i := .rolA) rfl hp
  case aslRead | rolRead => exact exec_rmw_of_operate rfl hp hf
  case aslCompute => exact exec_rmw_of_writeback1 (i := .asl m) rfl hp hf
  case rolCompute => exact exec_rmw_of_writeback1 (i := .rol m) rfl hp hf
  case aslWrite | rolWrite => exact exec_rmw_of_writeback2 rfl hp hf

end Sys2Proof.Proofs
end

section
/-! PROOFS. The branches (spec/43_branch.md R180 to R189): the condition as flag equals polarity, each of a branch's
parts for every answer of the host, and the whole branch on the RAM host of R52. -/

namespace Sys2Proof.Proofs

open Sys2Proof.Machine Sys2Proof.Laws Sys2Proof.Claims

variable {i : Instr} {s : State} {taken : Bool}

/-! ## The target (R181) -/

theorem lowByte_sext16 (b : Byte) : lowByte (sext16 b) = b := by
  refine BitVec.eq_of_getLsbD_eq fun n hn => ?_
  have hn16 : n < 16 := by omega
  rw [lowByte, BitVec.getLsbD_setWidth, sext16, BitVec.getLsbD_signExtend]
  simp [hn, hn16]

/-- The target's low byte is the sum of the low bytes, whatever the offset's sign. -/
theorem lowByte_branchTarget (oldPc : Word) (offset : Byte) :
    lowByte (branchTarget oldPc offset) = lowByte oldPc + offset := by
  calc lowByte (oldPc + sext16 offset)
    _ = lowByte oldPc + lowByte (sext16 offset) := BitVec.setWidth_add oldPc (sext16 offset) (by decide)
    _ = lowByte oldPc + offset := by rw [lowByte_sext16]

/-- Within the page the low-byte sum is already the target. -/
theorem branchLowSum_of_same_page {oldPc : Word} {offset : Byte}
    (h : highByte (branchTarget oldPc offset) = highByte oldPc) :
    branchLowSum oldPc offset = branchTarget oldPc offset := by
  rw [branchLowSum, ← h, ← lowByte_branchTarget, mkWord_high_low]

/-! ## The condition (R180, R182 to R189) -/

/-- A branch is the schedule of R181 over the condition its mnemonic names. -/
theorem exists_branchStep (hi : isBranch i = true) :
    ∃ cond : State → Bool, ∀ s, exec i s = branchStep cond s ∧ branchTaken i s.p = some (cond s) := by
  cases i <;> simp only [isBranch, Bool.false_eq_true] at hi
  all_goals exact ⟨_, fun _ => ⟨rfl, rfl⟩⟩

theorem isBranch_of_branchTaken {p : Byte} (h : branchTaken i p = some taken) : isBranch i = true := by
  cases i <;> simp_all [branchTaken, isBranch]

theorem wf_of_isBranch (hi : isBranch i = true) : i.wf = true := by
  cases i <;> simp_all [isBranch, Instr.wf]

/-- The mnemonic's condition is that the flag its opcode selects equals the polarity bit (R180): four branches have
polarity 0, four polarity 1. -/
theorem branchTaken_eq_polarity (hi : isBranch i = true) (p : Byte) :
    branchTaken i p = some (getFlag (branchFlag (encode i)) p == (encode i).getLsbD 5) := by
  cases i <;> simp only [isBranch, Bool.false_eq_true] at hi
  case bpl | bvc | bcc | bne => exact congrArg some (beq_false _).symm
  case bmi | bvs | bcs | beq => exact congrArg some (beq_true _).symm

/-! ## The parts (R181) -/

theorem exec_branch_fetchOffset (h : branchTaken i s.p = some taken) (hp : s.phase = .c1) :
    exec i s = .next (goto (if taken then .c2 else .idle) (fetchOffset s)) := by
  obtain ⟨cond, hcond⟩ := exists_branchStep (isBranch_of_branchTaken h)
  obtain ⟨hexec, htaken⟩ := hcond s
  obtain rfl : cond s = taken := Option.some.inj (htaken.symm.trans h)
  rw [hexec, branchStep, hp]
  cases cond s <;> rfl

theorem exec_branch_samePage (hi : isBranch i = true) (hp : s.phase = .c2)
    (hpage : highByte (branchTarget s.oldPc s.offset) = highByte s.oldPc) :
    exec i s = .next (done { s with pc := branchLowSum s.oldPc s.offset }) := by
  obtain ⟨cond, hcond⟩ := exists_branchStep hi
  obtain ⟨hexec, -⟩ := hcond s
  rw [hexec, branchStep, hp]
  simp [branchCrosses, hpage]

theorem exec_branch_crosses (hi : isBranch i = true) (hp : s.phase = .c2)
    (hpage : highByte (branchTarget s.oldPc s.offset) ≠ highByte s.oldPc) :
    exec i s = .next (goto .c3 { s with pc := branchLowSum s.oldPc s.offset }) := by
  obtain ⟨cond, hcond⟩ := exists_branchStep hi
  obtain ⟨hexec, -⟩ := hcond s
  rw [hexec, branchStep, hp]
  simp [branchCrosses, hpage]

theorem exec_branch_fixPage (hi : isBranch i = true) (hp : s.phase = .c3) :
    exec i s = .next (done { s with pc := branchTarget s.oldPc s.offset }) := by
  obtain ⟨cond, hcond⟩ := exists_branchStep hi
  obtain ⟨hexec, -⟩ := hcond s
  rw [hexec, branchStep, hp]

/-- Settles O22: the FetchOffset part, its condition read as flag equals polarity. -/
theorem branchConditionIsFlagEqualsPolarity : Obligations.BranchConditionIsFlagEqualsPolarity := by
  unfold Obligations.BranchConditionIsFlagEqualsPolarity
  intro i s hi hp
  rw [exec_branch_fetchOffset (branchTaken_eq_polarity hi s.p) hp]
  simp only [beq_iff_eq]
  rfl

/-- Settles O23: each clause is the part of R181 that is due. -/
theorem branchPartsComplete : Obligations.BranchPartsComplete := by
  unfold Obligations.BranchPartsComplete
  refine ⟨by decide, fun i s hi => ⟨fun hp h => ?notTaken, fun hp h => ?taken, fun hp hpage => ?samePage,
    fun hp hpage => ?crosses, fun hp => ?fixPage⟩⟩
  case notTaken | taken => exact exec_branch_fetchOffset h hp
  case samePage => exact exec_branch_samePage hi hp hpage
  case crosses => exact exec_branch_crosses hi hp hpage
  case fixPage => exact exec_branch_fixPage hi hp

/-! ## The whole branch on a RAM host -/

/-- The state a branch fetched at `s` leaves once its offset is read, but for the phase: PC is at the next instruction. -/
def offsetFetched (i : Instr) (s : State) : State :=
  { s with
    ir := encode i
    aaa := opcodeAaa (encode i)
    bbb := opcodeBbb (encode i)
    cc := opcodeCc (encode i)
    instructionCount := (s.instructionCount + 1) % 2 ^ s.cfg.icountWidth
    foundAddress := false
    pc := s.pc + 2
    oldPc := s.pc + 2
    offset := readByte s.mem (s.pc + 1).toNat
    busLog := ramRead s.mem (s.pc + 1) :: .read s.pc (encode i) :: s.busLog }

theorem fetchOffset_fetchStep (hs : AtInstr i s) : fetchOffset (fetchStep s) = goto .c1 (offsetFetched i s) := by
  obtain ⟨-, -, hram, hop⟩ := hs
  have hbyte : pcByte s = encode i := (pcByte_of_ram hram).trans hop
  simp [fetchOffset, goto, offsetFetched, ramRead, hbyte, hop, hram, takePcByte_of_ram, pcByte_of_ram,
    busAnswer_of_ram, BitVec.add_assoc]

theorem done_of_idle (hp : s.phase = .idle) : done s = s := by rw [done, ← hp]

/-- The fetch and the FetchOffset part. -/
theorem run_fetchOffset (hs : AtInstr i s) (h : branchTaken i s.p = some taken) :
    run 2 s = .next (goto (if taken then .c2 else .idle) (offsetFetched i s)) := by
  obtain ⟨hfetch, hx, hir, -, -⟩ := fetch_of_atInstr hs (wf_of_isBranch (isBranch_of_branchTaken h))
  have hoffset : step (fetchStep s) = .next (goto (if taken then .c2 else .idle) (fetchOffset (fetchStep s))) := by
    rw [step_decoded hx hir nofun]
    exact exec_branch_fetchOffset h rfl
  rw [run_succ 1 hfetch, run_succ 0 hoffset, fetchOffset_fetchStep hs]
  rfl

/-- A taken branch goes from its Evaluate part to the target: in that call within the page, by one more across it. -/
theorem run_evaluate (hi : isBranch i = true) (hx : Executing s) (hir : decodeOpcode s.ir = i) (hp : s.phase = .c2) :
    run (if highByte (branchTarget s.oldPc s.offset) = highByte s.oldPc then 1 else 2) s =
      .next (done { s with pc := branchTarget s.oldPc s.offset }) := by
  have hstep : step s = exec i s := step_decoded hx hir (by simp [hp])
  by_cases hpage : highByte (branchTarget s.oldPc s.offset) = highByte s.oldPc
  · rw [if_pos hpage, run_succ 0 (hstep.trans (exec_branch_samePage hi hp hpage)), branchLowSum_of_same_page hpage]
    rfl
  · have hfix := (step_decoded (s := goto .c3 { s with pc := branchLowSum s.oldPc s.offset }) hx hir nofun).trans
      (exec_branch_fixPage hi rfl)
    rw [if_neg hpage, run_succ 1 (hstep.trans (exec_branch_crosses hi hp hpage))]
    exact run_succ 0 hfix

/-- Settles O56: the two calls of every branch, and for a taken one those from its Evaluate part on. -/
theorem branchesEndToEnd : Obligations.BranchesEndToEnd := by
  unfold Obligations.BranchesEndToEnd
  intro i taken s hs h offset next target calls
  have ⟨hx, hidle, _, _⟩ := hs
  have hi : isBranch i = true := isBranch_of_branchTaken h
  have hfirst := run_fetchOffset hs h
  cases taken with
  | false => exact hfirst.trans (congrArg Host.Outcome.next (done_of_idle hidle))
  | true =>
    have hrest := run_evaluate (s := goto .c2 (offsetFetched i s)) hi hx
      (decodeOfEncodeIsIdentity i (wf_of_isBranch hi)) rfl
    have hcalls : calls = 2 + if highByte target = highByte next then 1 else 2 := (apply_ite (2 + ·) _ 1 2).symm
    rw [hcalls, run_add hfirst]
    exact hrest.trans (congrArg Host.Outcome.next (done_of_idle (s := { offsetFetched i s with pc := target }) hidle))

end Sys2Proof.Proofs
end

section
/-! PROOFS. The flag instructions (spec/44_flag_set_clear.md R190 to R197): the one execute call of each writes the bit of
P under its flag's mask. -/

namespace Sys2Proof.Proofs

open Sys2Proof.Machine Sys2Proof.Laws

variable {i : Instr} {f : Flag} {s : State} {mask : Byte}

/-- A clearing instruction completes with its flag's bit of P at 0 and nothing else changed. -/
theorem exec_clearFlag_of_c1 (hi : oneCallOp i = some (writeFlag f false)) (hmask : flagMask f = mask)
    (hp : s.phase = .c1) : exec i s = .next { s with p := s.p &&& ~~~mask, phase := .idle } := by
  subst hmask
  exact exec_oneCall_of_c1 hi hp

/-- A setting instruction completes with its flag's bit of P at 1 and nothing else changed. -/
theorem exec_setFlag_of_c1 (hi : oneCallOp i = some (writeFlag f true)) (hmask : flagMask f = mask)
    (hp : s.phase = .c1) : exec i s = .next { s with p := s.p ||| mask, phase := .idle } := by
  subst hmask
  exact exec_oneCall_of_c1 hi hp

/-- Settles O24: each is its row of `oneCallOp`, with the mask of the flag that row names; CLV's is OVR's (R195). -/
theorem flagInstructionsComplete : Obligations.FlagInstructionsComplete := by
  unfold Obligations.FlagInstructionsComplete
  refine ⟨by decide, fun s hp => ⟨?clc, ?sec, ?cli, ?sei, ?clv, ?cld, ?sed⟩⟩
  case clc | cli | clv | cld => exact exec_clearFlag_of_c1 rfl (by decide) hp
  case sec | sei | sed => exact exec_setFlag_of_c1 rfl (by decide) hp

end Sys2Proof.Proofs
end

section
/-! PROOFS. The stack, subroutine and jump instructions part by part, for every answer of the host
(spec/45_stack_subroutine_jump.md R201 to R209). -/

namespace Sys2Proof.Proofs

open Sys2Proof.Machine

variable {s : State}

/-! ## Pushes and pulls (R201 to R204) -/

/-- Settles O25: each is its row of `oneCallOp`, a push; only PHP's byte has BRK set. -/
theorem pushesComplete : Obligations.PushesComplete := by
  unfold Obligations.PushesComplete
  refine ⟨by decide, by decide, fun s hp => ⟨?php, ?pha⟩⟩
  case php => exact exec_oneCall_of_c1 (i := .php) rfl hp
  case pha => exact exec_oneCall_of_c1 (i := .pha) rfl hp

/-- Settles O26: each is its row of `oneCallOp`, a pull; PLP's treatment of bit 5 is the policy's. -/
theorem pullsComplete : Obligations.PullsComplete := by
  unfold Obligations.PullsComplete
  refine ⟨by decide, by decide, fun s hp => ⟨?plp, ?pla⟩⟩
  case plp => exact exec_oneCall_of_c1 (i := .plp) rfl hp
  case pla => exact exec_oneCall_of_c1 (i := .pla) rfl hp

/-! ## The parts of JSR (R206) -/

theorem exec_jsr_of_c1 (hp : s.phase = .c1) : exec .jsr s = .next (takeLowOperand s) := by
  rw [exec, execJsr, hp]

theorem exec_jsr_of_c2 (hp : s.phase = .c2) : exec .jsr s = .next (goto .c3 (takeHighOperand s)) := by
  rw [exec, execJsr, hp]

theorem exec_jsr_of_c3 (hp : s.phase = .c3) :
    exec .jsr s = .next (goto .c4 { push s (highByte (s.pc - 1)) with oldPc := s.pc - 1 }) := by
  rw [exec, execJsr, hp]

theorem exec_jsr_of_c4 (hp : s.phase = .c4) :
    exec .jsr s = .next (done { push s (lowByte s.oldPc) with pc := s.accessAddress }) := by
  rw [exec, execJsr, hp]

/-- Settles O27: each clause is the part of R206 that is due. -/
theorem jsrPartsComplete : Obligations.JsrPartsComplete := by
  unfold Obligations.JsrPartsComplete
  exact ⟨by decide, fun s => ⟨exec_jsr_of_c1, exec_jsr_of_c2, exec_jsr_of_c3, exec_jsr_of_c4⟩⟩

/-! ## The parts of RTS (R207) -/

theorem exec_rts_of_c1 (hp : s.phase = .c1) : exec .rts s = .next (goto .c2 (busRead s s.pc)) := by
  rw [exec, execRts, hp]

theorem exec_rts_of_c2 (hp : s.phase = .c2) :
    exec .rts s = .next (goto .c3 { pulled s with accessAddress := setLow s.accessAddress (pullByte s) }) := by
  rw [exec, execRts, hp]

theorem exec_rts_of_c3 (hp : s.phase = .c3) :
    exec .rts s = .next (done { pulled s with
      accessAddress := setHigh s.accessAddress (pullByte s), pc := setHigh s.accessAddress (pullByte s) + 1 }) := by
  rw [exec, execRts, hp]

/-- Settles O28: each clause is the part of R207 that is due. -/
theorem rtsPartsComplete : Obligations.RtsPartsComplete := by
  unfold Obligations.RtsPartsComplete
  exact ⟨by decide, fun s => ⟨exec_rts_of_c1, exec_rts_of_c2, exec_rts_of_c3⟩⟩

/-! ## The parts of JMP absolute and JMP indirect (R208, R209) -/

theorem exec_jmpAbs_of_c1 (hp : s.phase = .c1) : exec .jmpAbs s = .next (takeLowOperand s) := by
  rw [exec, execJmpAbs, hp]

/-- PC is the address assembled from the operand, not the address after it. -/
theorem exec_jmpAbs_of_c2 (hp : s.phase = .c2) :
    exec .jmpAbs s = .next (done { takeHighOperand s with pc := (takeHighOperand s).accessAddress }) := by
  rw [exec, execJmpAbs, hp]
  rfl

theorem exec_jmpInd_of_c1 (hp : s.phase = .c1) :
    exec .jmpInd s =
      .next (goto .c2 { takePcByte s with indirectAddress := setLow s.indirectAddress (pcByte s) }) := by
  rw [exec, execJmpInd, hp]

theorem exec_jmpInd_of_c2 (hp : s.phase = .c2) :
    exec .jmpInd s =
      .next (goto .c3 { takePcByte s with indirectAddress := setHigh s.indirectAddress (pcByte s) }) := by
  rw [exec, execJmpInd, hp]

theorem exec_jmpInd_of_c3 (hp : s.phase = .c3) : exec .jmpInd s = .next (goto .c4 s) := by
  rw [exec, execJmpInd, hp]

theorem exec_jmpInd_of_c4 (hp : s.phase = .c4) :
    exec .jmpInd s = .next (goto .c5 { busRead s s.indirectAddress with
      accessAddress := setLow s.accessAddress (busAnswer s s.indirectAddress) }) := by
  rw [exec, execJmpInd, hp]

theorem exec_jmpInd_of_c5 (hp : s.phase = .c5) :
    exec .jmpInd s = .next (done { busRead s (s.indirectAddress + 1) with
      accessAddress := setHigh s.accessAddress (busAnswer s (s.indirectAddress + 1))
      pc := setHigh s.accessAddress (busAnswer s (s.indirectAddress + 1)) }) := by
  rw [exec, execJmpInd, hp]

/-- Settles O29: each clause is the part of R208 or R209 that is due. -/
theorem jumpPartsComplete : Obligations.JumpPartsComplete := by
  unfold Obligations.JumpPartsComplete
  exact ⟨by decide, by decide, fun s => ⟨fun hp => ⟨exec_jmpAbs_of_c1 hp, exec_jmpInd_of_c1 hp⟩,
    fun hp => ⟨exec_jmpAbs_of_c2 hp, exec_jmpInd_of_c2 hp⟩, exec_jmpInd_of_c3, exec_jmpInd_of_c4,
    exec_jmpInd_of_c5⟩⟩

end Sys2Proof.Proofs
end

section
/-! PROOFS. The jumps, JSR and RTS whole, from their fetch, on the RAM host of R52, and the return of an RTS to the
instruction after its JSR (spec/45_stack_subroutine_jump.md R205 to R210). -/

namespace Sys2Proof.Proofs

open Sys2Proof.Machine Sys2Proof.Laws Sys2Proof.Claims

variable {i : Instr} {s t : State}

/-! ## Words in memory and on the stack -/

/-- The word in memory at an address and its successor modulo 65536, low byte first (R55, R56). -/
def wordAt (mem : Memory) (addr : Word) : Word := mkWord (readByte mem (addr + 1).toNat) (readByte mem addr.toNat)

/-- The operand word of a three-byte instruction at PC. -/
theorem wordAt_operand (s : State) :
    wordAt s.mem (s.pc + 1) = mkWord (readByte s.mem (s.pc + 2).toNat) (readByte s.mem (s.pc + 1).toNat) := by
  have hnext : s.pc + 1 + 1 = s.pc + 2 := add_assoc s.pc 1 1
  rw [wordAt, hnext]

/-- The memory after a word is pushed with SP at `sp`: the high byte goes first (R205). -/
def pushWord (mem : Memory) (sp : Byte) (w : Word) : Memory :=
  writeByte (writeByte mem (stackAddr sp).toNat (highByte w)) (stackAddr (sp - 1)).toNat (lowByte w)

/-- The word that two pulls find on the stack, the low byte first. -/
def stackWord (s : State) : Word :=
  mkWord (readByte s.mem (stackAddr (s.sp + 2)).toNat) (readByte s.mem (stackAddr (s.sp + 1)).toNat)

/-- The stack page has a byte of its own for each value of SP. -/
theorem stackAddr_injective : Function.Injective stackAddr := by
  intro a b h
  have hlow : zext16 a = zext16 b := add_left_cancel h
  rw [← lowByte_zext16 a, hlow, lowByte_zext16]

/-- A word just pushed reads back: its two bytes are at different addresses. -/
theorem mkWord_readByte_pushWord {mem : Memory} {sp : Byte} {w : Word} (hw : Memory.wf mem = true) :
    mkWord (readByte (pushWord mem sp w) (stackAddr sp).toNat)
      (readByte (pushWord mem sp w) (stackAddr (sp - 1)).toNat) = w := by
  have hne : (stackAddr sp).toNat ≠ (stackAddr (sp - 1)).toNat := by
    intro h
    have hsp : sp = sp - 1 := stackAddr_injective (BitVec.eq_of_toNat_eq h)
    exact absurd (sub_eq_self.1 hsp.symm) (by decide)
  have hw' := writeByte_wf mem (stackAddr sp).toNat (highByte w) (stackAddr sp).isLt hw
  rw [pushWord, readByte_writeByte_same _ _ _ hw', readByte_writeByte_other _ _ _ _ hne,
    readByte_writeByte_same _ _ _ hw, mkWord_high_low]

/-- Pushing a word leaves every byte but its own two. -/
theorem readByte_pushWord_other {mem : Memory} {sp : Byte} {w addr : Word} (hhigh : addr ≠ stackAddr sp)
    (hlow : addr ≠ stackAddr (sp - 1)) : readByte (pushWord mem sp w) addr.toNat = readByte mem addr.toNat := by
  rw [pushWord, readByte_writeByte_other _ _ _ _ (BitVec.toNat_ne_iff_ne.2 hlow),
    readByte_writeByte_other _ _ _ _ (BitVec.toNat_ne_iff_ne.2 hhigh)]

/-! ## The fetch, and what the jumps have in common -/

/-- An execute call of the instruction in IR is the first call of a run from it. -/
theorem run_exec (n : Nat) (hx : Executing s) (hir : decodeOpcode s.ir = i) (hp : s.phase ≠ .idle)
    (h : exec i s = .next t) : run (n + 1) s = run n t :=
  run_succ n ((step_decoded hx hir hp).trans h)

/-- The state after the fetch of `i` at PC by a RAM host (R102). -/
def fetched (i : Instr) (s : State) : State :=
  { s with
    ir := encode i
    aaa := opcodeAaa (encode i)
    bbb := opcodeBbb (encode i)
    cc := opcodeCc (encode i)
    instructionCount := (s.instructionCount + 1) % 2 ^ s.cfg.icountWidth
    foundAddress := false
    pc := s.pc + 1
    phase := .c1
    busLog := ramRead s.mem s.pc :: s.busLog }

/-- The fetch leaves the instruction's first execute call due. -/
theorem step_fetched (hs : AtInstr i s) (hw : i.wf = true) :
    step s = .next (fetched i s) ∧ decodeOpcode (fetched i s).ir = i := by
  obtain ⟨hfetch, -⟩ := fetch_of_atInstr hs hw
  obtain ⟨-, -, hram, hop⟩ := hs
  have hbyte : pcByte s = encode i := (pcByte_of_ram hram).trans hop
  have heq : fetchStep s = fetched i s := by simp [fetchStep, fetched, takePcByte_of_ram, hram, hbyte]
  exact ⟨heq ▸ hfetch, decodeOfEncodeIsIdentity i hw⟩

/-- JMP absolute or JSR has read the two operand bytes at PC into access_address (R206, R208). -/
def operandsTaken (s : State) : State :=
  { s with
    accessAddress := wordAt s.mem s.pc
    pc := s.pc + 2
    phase := .c2
    busLog := ramRead s.mem (s.pc + 1) :: ramRead s.mem s.pc :: s.busLog }

theorem takeHighOperand_takeLowOperand (hram : s.answers = []) :
    takeHighOperand (takeLowOperand s) = operandsTaken s := by
  simp [takeHighOperand, takeLowOperand, takePcByte_of_ram, pcByte_of_ram, hram, setHigh_setLow, operandsTaken,
    wordAt, BitVec.add_assoc]

/-- A jump, a call or a return from `s` is complete, and has neither halted the core nor touched A, X, Y and P. -/
def JumpKeeps (s t : State) : Prop :=
  t.phase = .idle ∧ t.isRunning = s.isRunning ∧ t.a = s.a ∧ t.x = s.x ∧ t.y = s.y ∧ t.p = s.p

/-! ## JMP absolute and JMP indirect (R208, R209) -/

/-- The state a JMP absolute at PC leaves. -/
def jumped (s : State) : State :=
  { operandsTaken (fetched .jmpAbs s) with pc := wordAt s.mem (s.pc + 1), phase := .idle }

theorem run_jmpAbs (hs : AtInstr .jmpAbs s) : run 3 s = .next (jumped s) := by
  have ⟨hx, _, hram, _⟩ := hs
  obtain ⟨hfetch, hir⟩ := step_fetched hs rfl
  calc run 3 s
    _ = run 2 (fetched .jmpAbs s) := run_succ 2 hfetch
    _ = run 1 (takeLowOperand (fetched .jmpAbs s)) := run_exec 1 hx hir nofun (exec_jmpAbs_of_c1 rfl)
    _ = .next _ := run_exec 0 hx hir nofun (exec_jmpAbs_of_c2 rfl)
    _ = .next (jumped s) := by rw [takeHighOperand_takeLowOperand (s := fetched .jmpAbs s) hram]; rfl

theorem jumpKeeps_jumped (s : State) : JumpKeeps s (jumped s) := ⟨rfl, rfl, rfl, rfl, rfl, rfl⟩

/-- JMP indirect has read the two operand bytes at PC into indirect_address (R209). -/
def pointerTaken (s : State) : State :=
  { s with
    indirectAddress := wordAt s.mem s.pc
    pc := s.pc + 2
    phase := .c3
    busLog := ramRead s.mem (s.pc + 1) :: ramRead s.mem s.pc :: s.busLog }

theorem run_pointerTaken (hx : Executing s) (hir : decodeOpcode s.ir = .jmpInd) (hram : s.answers = [])
    (hp : s.phase = .c1) : run 2 s = .next (pointerTaken s) := by
  calc run 2 s
    _ = run 1 _ := run_exec 1 hx hir (by simp [hp]) (exec_jmpInd_of_c1 hp)
    _ = .next _ := run_exec 0 hx hir nofun (exec_jmpInd_of_c2 rfl)
    _ = .next (pointerTaken s) := by
      simp [pointerTaken, goto, takePcByte_of_ram, pcByte_of_ram, hram, setHigh_setLow, wordAt, BitVec.add_assoc]

/-- JMP indirect has jumped: PC is the word at the pointer and its successor modulo 65536 (R209). -/
def pointerFollowed (s : State) : State :=
  { s with
    accessAddress := wordAt s.mem s.indirectAddress
    pc := wordAt s.mem s.indirectAddress
    phase := .idle
    busLog := ramRead s.mem (s.indirectAddress + 1) :: ramRead s.mem s.indirectAddress :: s.busLog }

/-- The fix-up call makes no access; the two after it read the target at the pointer. -/
theorem run_pointerFollowed (hx : Executing s) (hir : decodeOpcode s.ir = .jmpInd) (hram : s.answers = [])
    (hp : s.phase = .c3) : run 3 s = .next (pointerFollowed s) := by
  calc run 3 s
    _ = run 2 (goto .c4 s) := run_exec 2 hx hir (by simp [hp]) (exec_jmpInd_of_c3 hp)
    _ = run 1 _ := run_exec 1 hx hir nofun (exec_jmpInd_of_c4 rfl)
    _ = .next _ := run_exec 0 hx hir nofun (exec_jmpInd_of_c5 rfl)
    _ = .next (pointerFollowed s) := by
      simp [pointerFollowed, goto, done, busRead_of_ram, busAnswer_of_ram, hram, setHigh_setLow, wordAt]

/-- The state a JMP indirect at PC leaves. -/
def jumpedIndirect (s : State) : State := pointerFollowed (pointerTaken (fetched .jmpInd s))

theorem run_jmpInd (hs : AtInstr .jmpInd s) : run 6 s = .next (jumpedIndirect s) := by
  have ⟨hx, _, hram, _⟩ := hs
  obtain ⟨hfetch, hir⟩ := step_fetched hs rfl
  calc run 6 s
    _ = run 5 (fetched .jmpInd s) := run_succ 5 hfetch
    _ = run 3 (pointerTaken (fetched .jmpInd s)) := run_add (k := 3) (run_pointerTaken hx hir hram rfl)
    _ = .next (jumpedIndirect s) := run_pointerFollowed hx hir hram rfl

theorem jumpKeeps_jumpedIndirect (s : State) : JumpKeeps s (jumpedIndirect s) := ⟨rfl, rfl, rfl, rfl, rfl, rfl⟩

/-! ## JSR and RTS (R205 to R207) -/

/-- JSR has jumped: PC - 1, the address of its last byte, is on the stack, and PC is its target (R205, R206). -/
def returnPushed (s : State) : State :=
  { s with
    oldPc := s.pc - 1
    pc := s.accessAddress
    sp := s.sp - 2
    mem := pushWord s.mem s.sp (s.pc - 1)
    phase := .idle
    busLog := .write (stackAddr (s.sp - 1)) (lowByte (s.pc - 1)) ::
      .write (stackAddr s.sp) (highByte (s.pc - 1)) :: s.busLog }

theorem run_returnPushed (hx : Executing s) (hir : decodeOpcode s.ir = .jsr) (hp : s.phase = .c3) :
    run 2 s = .next (returnPushed s) := by
  have hsp : s.sp - 1#8 - 1#8 = s.sp - 2#8 := sub_sub s.sp 1 1
  calc run 2 s
    _ = run 1 _ := run_exec 1 hx hir (by simp [hp]) (exec_jsr_of_c3 hp)
    _ = .next _ := run_exec 0 hx hir nofun (exec_jsr_of_c4 rfl)
    _ = .next (returnPushed s) := by simp [returnPushed, goto, done, push, busWrite, pushWord, hsp]

/-- The state a JSR at PC leaves. -/
def called (s : State) : State := returnPushed (goto .c3 (operandsTaken (fetched .jsr s)))

theorem run_jsr (hs : AtInstr .jsr s) : run 5 s = .next (called s) := by
  have ⟨hx, _, hram, _⟩ := hs
  obtain ⟨hfetch, hir⟩ := step_fetched hs rfl
  have htaken := takeHighOperand_takeLowOperand (s := fetched .jsr s) hram
  calc run 5 s
    _ = run 4 (fetched .jsr s) := run_succ 4 hfetch
    _ = run 3 (takeLowOperand (fetched .jsr s)) := run_exec 3 hx hir nofun (exec_jsr_of_c1 rfl)
    _ = run 2 (goto .c3 (operandsTaken (fetched .jsr s))) :=
      htaken ▸ run_exec 2 hx hir nofun (exec_jsr_of_c2 rfl)
    _ = .next (called s) := run_returnPushed hx hir rfl

theorem jumpKeeps_called (s : State) : JumpKeeps s (called s) := ⟨rfl, rfl, rfl, rfl, rfl, rfl⟩

theorem called_sp (s : State) : (called s).sp = s.sp - 2 := rfl

/-- PC - 1 is the address of the JSR's last byte when its operands have been taken. -/
theorem called_mem (s : State) : (called s).mem = pushWord s.mem s.sp (s.pc + 2) := by
  have hlast : s.pc + 1 + 2 - 1 = s.pc + 2 := by rw [add_right_comm, add_sub_cancel_right]
  exact congrArg (pushWord s.mem s.sp) hlast

/-- RTS has returned: PC is one past the address it pulled (R205, R207). -/
def returnPulled (s : State) : State :=
  { s with
    accessAddress := stackWord s
    pc := stackWord s + 1
    sp := s.sp + 2
    phase := .idle
    busLog := ramRead s.mem (stackAddr (s.sp + 2)) :: ramRead s.mem (stackAddr (s.sp + 1)) :: s.busLog }

theorem run_returnPulled (hx : Executing s) (hir : decodeOpcode s.ir = .rts) (hram : s.answers = [])
    (hp : s.phase = .c2) : run 2 s = .next (returnPulled s) := by
  calc run 2 s
    _ = run 1 _ := run_exec 1 hx hir (by simp [hp]) (exec_rts_of_c2 hp)
    _ = .next _ := run_exec 0 hx hir nofun (exec_rts_of_c3 rfl)
    _ = .next (returnPulled s) := by
      simp [returnPulled, goto, done, pulled, pullByte, busRead_of_ram, busAnswer_of_ram, hram, setHigh_setLow,
        stackWord, BitVec.add_assoc]

/-- The state an RTS at PC leaves: its fetch, the dummy read of the byte after it, and the two pulls (R207). -/
def returned (s : State) : State := returnPulled (goto .c2 (busRead (fetched .rts s) (s.pc + 1)))

theorem run_rts (hs : AtInstr .rts s) : run 4 s = .next (returned s) := by
  have ⟨hx, _, hram, _⟩ := hs
  obtain ⟨hfetch, hir⟩ := step_fetched hs rfl
  calc run 4 s
    _ = run 3 (fetched .rts s) := run_succ 3 hfetch
    _ = run 2 (goto .c2 (busRead (fetched .rts s) (s.pc + 1))) := run_exec 2 hx hir nofun (exec_rts_of_c1 rfl)
    _ = .next (returned s) := run_returnPulled hx hir (congrArg List.tail hram) rfl

theorem jumpKeeps_returned (s : State) : JumpKeeps s (returned s) := ⟨rfl, rfl, rfl, rfl, rfl, rfl⟩

theorem returned_pc (s : State) : (returned s).pc = stackWord s + 1 := rfl

theorem returned_sp (s : State) : (returned s).sp = s.sp + 2 := rfl

/-! ## The jumps, and a JSR with its RTS (R210) -/

/-- Settles O58: each jump runs to the state that names its target, and JSR's has the return address pushed. -/
theorem jumpsEndToEnd : Obligations.JumpsEndToEnd := by
  unfold Obligations.JumpsEndToEnd
  intro s
  rw [← wordAt_operand s]
  refine ⟨fun hs => ?jmpAbs, fun hs => ?jmpInd, fun hs => ?jsr⟩
  all_goals have ⟨⟨hrun, _, _⟩, _, _, _⟩ := hs
  case jmpAbs =>
    obtain ⟨hidle, hkept, hregs⟩ := jumpKeeps_jumped s
    exact ⟨jumped s, run_jmpAbs hs, ⟨hidle, hkept.trans hrun, hregs⟩, rfl, rfl, rfl⟩
  case jmpInd =>
    obtain ⟨hidle, hkept, hregs⟩ := jumpKeeps_jumpedIndirect s
    exact ⟨jumpedIndirect s, run_jmpInd hs, ⟨hidle, hkept.trans hrun, hregs⟩, rfl, rfl, rfl⟩
  case jsr =>
    obtain ⟨hidle, hkept, hregs⟩ := jumpKeeps_called s
    exact ⟨called s, run_jsr hs, ⟨hidle, hkept.trans hrun, hregs⟩, rfl, rfl, called_mem s⟩

/-- Where a JSR leads to an RTS that its pushes leave alone, the RTS is about to be fetched. -/
theorem atInstr_rts_called (hs : AtInstr .jsr s)
    (hop : readByte s.mem (wordAt s.mem (s.pc + 1)).toNat = encode .rts)
    (hhigh : wordAt s.mem (s.pc + 1) ≠ stackAddr s.sp) (hlow : wordAt s.mem (s.pc + 1) ≠ stackAddr (s.sp - 1)) :
    AtInstr .rts (called s) := by
  obtain ⟨hx, -, hram, -⟩ := hs
  have hkept := readByte_pushWord_other (mem := s.mem) (w := s.pc + 2) hhigh hlow
  exact ⟨hx, rfl, hram, called_mem s ▸ hkept.trans hop⟩

/-- After a JSR the word on the stack is the address of its last byte. -/
theorem stackWord_called (hw : Memory.wf s.mem = true) : stackWord (called s) = s.pc + 2 := by
  have hhigh : s.sp - 2 + 2 = s.sp := sub_add_cancel s.sp 2
  have hlow : s.sp - 2 + 1 = s.sp - 1 := sub_add s.sp 2 1
  rw [stackWord, called_mem, called_sp, hhigh, hlow, mkWord_readByte_pushWord hw]

/-- Settles O57: the JSR leaves the RTS due, and the RTS pulls the word that the JSR pushed. -/
theorem jsrThenRtsReturns : Obligations.JsrThenRtsReturns := by
  unfold Obligations.JsrThenRtsReturns
  intro s hs hw
  rw [← wordAt_operand s]
  intro target hop hhigh hlow
  have ⟨⟨hrun, _, _⟩, _, _, _⟩ := hs
  have hreturn := run_rts (atInstr_rts_called hs hop hhigh hlow)
  have hpc : (returned (called s)).pc = s.pc + 3 := by
    rw [returned_pc, stackWord_called hw]
    exact add_assoc s.pc 2 1
  have hsp : (returned (called s)).sp = s.sp := by
    rw [returned_sp, called_sp]
    exact sub_add_cancel s.sp 2
  obtain ⟨-, hrunJsr, haJsr, hxJsr, hyJsr, hpJsr⟩ := jumpKeeps_called s
  obtain ⟨hidle, hrunRts, haRts, hxRts, hyRts, hpRts⟩ := jumpKeeps_returned (called s)
  exact ⟨returned (called s), (run_add (k := 4) (run_jsr hs)).trans hreturn, hidle,
    hrunRts.trans (hrunJsr.trans hrun), hpc, hsp, haRts.trans haJsr, hxRts.trans hxJsr, hyRts.trans hyJsr, hpRts.trans hpJsr⟩

end Sys2Proof.Proofs
end

section
/-! PROOFS. The transfers, increments and decrements (spec/46_transfer_incdec.md R220 to R230): the one execute call of
each loads a value computed from the registers into A, X or Y, with set_NZ of that value (R220). -/

namespace Sys2Proof.Proofs

open Sys2Proof.Machine Sys2Proof.Laws

variable {i : Instr} {s : State} {value : State → Byte}

/-- An instruction that loads `value` into A completes with A and set_NZ of it, and nothing else changed. -/
theorem exec_loadA_of_c1 (hi : oneCallOp i = some fun t => loadA (value t) t) (hp : s.phase = .c1) :
    exec i s = .next { s with a := value s, p := setNZ (value s) s.p, phase := .idle } :=
  exec_oneCall_of_c1 hi hp

/-- An instruction that loads `value` into X completes with X and set_NZ of it, and nothing else changed. -/
theorem exec_loadX_of_c1 (hi : oneCallOp i = some fun t => loadX (value t) t) (hp : s.phase = .c1) :
    exec i s = .next { s with x := value s, p := setNZ (value s) s.p, phase := .idle } :=
  exec_oneCall_of_c1 hi hp

/-- An instruction that loads `value` into Y completes with Y and set_NZ of it, and nothing else changed. -/
theorem exec_loadY_of_c1 (hi : oneCallOp i = some fun t => loadY (value t) t) (hp : s.phase = .c1) :
    exec i s = .next { s with y := value s, p := setNZ (value s) s.p, phase := .idle } :=
  exec_oneCall_of_c1 hi hp

/-- Settles O30: each is its row of `oneCallOp`, a load of the source register into the destination. -/
theorem transfersComplete : Obligations.TransfersComplete := by
  unfold Obligations.TransfersComplete
  refine ⟨by decide, fun s hp => ⟨?tax, ?txa, ?tay, ?tya⟩⟩
  case tax => exact exec_loadX_of_c1 rfl hp
  case tay => exact exec_loadY_of_c1 rfl hp
  case txa | tya => exact exec_loadA_of_c1 rfl hp

/-- Settles O31: each is its row of `oneCallOp`, a load of the register's own successor or predecessor; as bytes these
are modulo 256. -/
theorem incrementsDecrementsComplete : Obligations.IncrementsDecrementsComplete := by
  unfold Obligations.IncrementsDecrementsComplete
  refine ⟨by decide, fun s hp => ⟨?inx, ?iny, ?dex, ?dey, ?incA, ?decA⟩⟩
  case inx => exact exec_loadX_of_c1 (i := .inx) rfl hp
  case iny => exact exec_loadY_of_c1 (i := .iny) rfl hp
  case dex => exact exec_loadX_of_c1 (i := .dex) rfl hp
  case dey => exact exec_loadY_of_c1 (i := .dey) rfl hp
  case incA => exact exec_loadA_of_c1 (i := .incA) rfl hp
  case decA => exact exec_loadA_of_c1 (i := .decA) rfl hp

end Sys2Proof.Proofs
end

section
/-! PROOFS. NOP, the debug trace, BRK and the illegal-opcode trap (spec/48_misc_halt.md R255 to R259), and the two fault
states, which nothing but a reset leaves (spec/60_exceptions.md R301 to R309). -/

namespace Sys2Proof.Proofs

open Sys2Proof.Machine Sys2Proof.Laws Sys2Proof.Claims

variable {i : Instr} {s : State} {trap : State → State}

/-- Settles O32: each is its row of `oneCallOp`; only DBG's emits. -/
theorem nopAndTraceComplete : Obligations.NopAndTraceComplete := by
  unfold Obligations.NopAndTraceComplete
  refine ⟨by decide, by decide, fun s hp => ⟨?nop, ?dbg⟩⟩
  case nop => exact exec_oneCall_of_c1 (i := .nop) rfl hp
  case dbg => exact exec_oneCall_of_c1 (i := .dbg) rfl hp

/-! ## The halting call -/

theorem exec_of_haltOp (h : haltOp i = some trap) : exec i s = haltingInstr trap s := by
  cases i <;> simp only [haltOp, Option.some.injEq, reduceCtorEq] at h
  all_goals
    subst h
    rfl

/-- The one execute call of BRK or of an illegal opcode is its halt. -/
theorem exec_halting_of_c1 (h : haltOp i = some trap) (hp : s.phase = .c1) : exec i s = .next (trap s) := by
  rw [exec_of_haltOp h, haltingInstr, hp]

/-- Settles O33: each is its row of `haltOp`; only the trap of an illegal opcode emits. -/
theorem haltsComplete : Obligations.HaltsComplete := by
  unfold Obligations.HaltsComplete
  refine ⟨by decide, decodeOpcode_illegal, fun s hp => ⟨?brk, fun opcode => ?illegal⟩⟩
  case brk => exact exec_halting_of_c1 (i := .brk) rfl hp
  case illegal => exact exec_halting_of_c1 (i := .illegal opcode) rfl hp

/-! ## A halted core, and a halting instruction whole -/

theorem isRunning_of_haltOp (h : haltOp i = some trap) (s : State) : (trap s).isRunning = false := by
  cases i <;> simp only [haltOp, Option.some.injEq, reduceCtorEq] at h
  all_goals
    subst h
    rfl

/-- Calls on a halted core change nothing, however many they are (R302). -/
theorem run_halted (n : Nat) (h : s.isRunning = false) : run n s = .next s := by
  induction n with
  | zero => rfl
  | succ n ih => rw [run_succ n (step_halted h), ih]

/-- A halting instruction from its fetch: two calls, and any number more. -/
theorem run_halting (extra : Nat) (hs : AtInstr i s) (hw : i.wf = true) (hi : haltOp i = some trap) :
    run (2 + extra) s = .next (trap (fetched i s)) := by
  have ⟨hx, _, _, _⟩ := hs
  obtain ⟨hfetch, hir⟩ := step_fetched hs hw
  have hhalt : run 2 s = .next (trap (fetched i s)) :=
    calc run 2 s
      _ = run 1 (fetched i s) := run_succ 1 hfetch
      _ = .next (trap (fetched i s)) := run_exec 0 hx hir nofun (exec_halting_of_c1 hi rfl)
  rw [run_add hhalt, run_halted extra (isRunning_of_haltOp hi _)]

/-- Settles O59: after the two calls the core is halted, with the phase back at idle, the fetched byte in the log, and
the address of an illegal opcode one below the PC its trap sees. -/
theorem haltsEndToEnd : Obligations.HaltsEndToEnd := by
  unfold Obligations.HaltsEndToEnd
  intro i s extra hi hs
  have ⟨_, hp, _, hop⟩ := hs
  rcases hi with rfl | ⟨opcode, rfl, hw⟩
  · rw [run_halting extra hs rfl rfl]
    simp [halt, fetched, ramRead, hop, hp]
  · rw [run_halting extra hs hw rfl]
    simp [trapIllegal, halt, emit, fetched, ramRead, hop, hp]

end Sys2Proof.Proofs
end

section
/-! PROOFS. Reset (spec/70_reset_and_hazards.md R330 to R333): what it writes and when it is refused, the invariant
after it, the halted core that only it starts (spec/60_exceptions.md R302), and its countdown call by call. -/

namespace Sys2Proof.Proofs

open Sys2Proof.Machine Sys2Proof.Laws

variable {s t : State} {giveRead giveWrite : Bool}

/-! ## The reset itself (R330) -/

/-- The state an answered reset leaves: a constructed core but for what R330 writes after zeroing, and the host's side,
which stays. -/
def afterReset (giveRead giveWrite : Bool) (s : State) : State :=
  { State.constructed s.cfg with
    pc := 0xFFFC
    sp := s.cfg.spReset
    p := 0x20
    resetDelay := s.cfg.resetDelay
    isRunning := true
    readBound := giveRead || s.readBound
    writeBound := giveWrite || s.writeBound
    mem := s.mem
    answers := s.answers
    busLog := s.busLog
    events := s.events }

theorem hostReset_of_bound (h : busBound (afterReset giveRead giveWrite s) = true) :
    hostReset giveRead giveWrite s = .next (afterReset giveRead giveWrite s) :=
  if_pos h

theorem hostReset_of_unbound (h : busBound (afterReset giveRead giveWrite s) = false) :
    hostReset giveRead giveWrite s = .refused .busUnbound :=
  if_neg (Bool.eq_false_iff.1 h)

/-- What a reset that answers was. -/
theorem hostReset_cases (h : hostReset giveRead giveWrite s = .next t) :
    busBound (afterReset giveRead giveWrite s) = true ∧ t = afterReset giveRead giveWrite s := by
  cases hb : busBound (afterReset giveRead giveWrite s) with
  | true =>
    rw [hostReset_of_bound hb] at h
    cases h
    exact ⟨rfl, rfl⟩
  | false =>
    rw [hostReset_of_unbound hb] at h
    cases h

/-- Settles O1, over the two outcomes of a reset. -/
theorem resetWritesEveryField : Obligations.ResetWritesEveryField := by
  unfold Obligations.ResetWritesEveryField
  intro giveRead giveWrite s
  exact ⟨fun hb => hostReset_of_bound (Bool.and_eq_true_iff.2 hb),
    fun hb => hostReset_of_unbound (Bool.and_eq_false_iff.2 hb)⟩

/-- Settles O2: the first reset hands both capabilities over, so it answers. -/
theorem stateResetIsFirstReset : Obligations.StateResetIsFirstReset := by
  unfold Obligations.StateResetIsFirstReset
  exact hostReset_of_bound rfl

/-- Settles O4, over the outcomes of a step: on a halted core it answers the state it was given. -/
theorem haltedCoreIsAbsorbing : Obligations.HaltedCoreIsAbsorbing := by
  unfold Obligations.HaltedCoreIsAbsorbing
  refine ⟨fun s => step_halted, fun cfg => rfl, fun s t h ht => ?_, fun giveRead giveWrite s t h => ?_⟩
  · rcases step_cases h with ⟨-, rfl⟩ | ⟨hr, -⟩ | ⟨hr, -⟩
    · exact ht
    · exact hr
    · exact hr
  · obtain ⟨-, rfl⟩ := hostReset_cases h
    rfl

/-! ## The invariant after a reset (R44, R47) -/

theorem inv_afterReset (hcfg : s.cfg.Wf) (hmem : Memory.wf s.mem = true)
    (hb : busBound (afterReset giveRead giveWrite s) = true) : Inv (afterReset giveRead giveWrite s) where
  memWf := hmem
  cfgWf := hcfg
  fields := (by decide : (0 : BitVec 3) = opcodeAaa 0 ∧ (0 : BitVec 3) = opcodeBbb 0 ∧ (0 : BitVec 2) = opcodeCc 0)
  phaseLegal := .inl rfl
  found := .inl rfl
  haltedIdle _ := rfl
  countdown _ := ⟨rfl, rfl⟩
  brkClear := (by decide : getFlag .brk 0x20 = false)
  ignSet _ _ := (by decide : getFlag .ign 0x20 = true)
  countBound := Nat.two_pow_pos _
  bound _ := hb

/-- Settles O46: the one state a reset can leave meets the invariant. -/
theorem hostResetEstablishesInvariant : Obligations.HostResetEstablishesInvariant := by
  unfold Obligations.HostResetEstablishesInvariant
  intro giveRead giveWrite s t hcfg hmem h
  obtain ⟨hb, rfl⟩ := hostReset_cases h
  exact inv_afterReset hcfg hmem hb

/-- Settles O45: State.reset is left by the first reset of a constructed core, whose memory is empty. -/
theorem resetStateIsInvariant : Obligations.ResetStateIsInvariant := by
  unfold Obligations.ResetStateIsInvariant
  exact hostResetEstablishesInvariant true true _ _ (by decide) rfl stateResetIsFirstReset

/-! ## The countdown (R331) -/

/-- The state after k empty calls of the countdown. -/
def countedDown (k : Nat) (s : State) : State := { s with resetDelay := s.resetDelay - BitVec.ofNat 8 k }

/-- The state after the countdown call that reads the vector's low byte. -/
def lowVectorRead (s : State) : State :=
  { busRead s 0xFFFC with pc := setLow s.pc (busAnswer s 0xFFFC), resetDelay := 1 }

/-- The state after the countdown call that reads the vector's high byte. -/
def highVectorRead (s : State) : State :=
  { busRead s 0xFFFD with pc := setHigh s.pc (busAnswer s 0xFFFD), resetDelay := 0 }

theorem toNat_resetDelay_countedDown {k : Nat} (hk : k ≤ s.resetDelay.toNat) :
    (countedDown k s).resetDelay.toNat = s.resetDelay.toNat - k := by
  have hlt := s.resetDelay.isLt
  simp only [countedDown, BitVec.toNat_sub, BitVec.toNat_ofNat]
  omega

theorem countedDown_succ (k : Nat) (s : State) : countedDown 1 (countedDown k s) = countedDown (k + 1) s := by
  have hdelay : s.resetDelay - BitVec.ofNat 8 k - BitVec.ofNat 8 1 = s.resetDelay - BitVec.ofNat 8 (k + 1) := by
    rw [BitVec.ofNat_add, sub_sub]
  rw [countedDown, countedDown, countedDown, hdelay]

/-- A countdown call above the two vector reads is empty. -/
theorem resetCountdownStep_empty (hd : 3 ≤ s.resetDelay.toNat) : resetCountdownStep s = countedDown 1 s := by
  have hne (n : Byte) (hn : n.toNat < 3) : s.resetDelay ≠ n := by
    rintro rfl
    omega
  rw [resetCountdownStep, if_neg (hne 2 (by decide)), if_neg (hne 1 (by decide))]
  rfl

theorem resetCountdownStep_low (hd : s.resetDelay = 2) : resetCountdownStep s = lowVectorRead s := by
  rw [resetCountdownStep, if_pos hd, hd]
  rfl

theorem resetCountdownStep_high (hd : s.resetDelay = 1) : resetCountdownStep s = highVectorRead s := by
  rw [resetCountdownStep, if_neg (by rw [hd]; decide), if_pos hd, hd]
  rfl

/-- The empty calls, as many as leave the two vector reads. -/
theorem run_countedDown {k : Nat} (hr : s.isRunning = true) (hb : busBound s = true)
    (hk : k + 2 ≤ s.resetDelay.toNat) : run k s = .next (countedDown k s) := by
  induction k with
  | zero => simp [countedDown]
  | succ k ih =>
    have hleft : 3 ≤ (countedDown k s).resetDelay.toNat := by
      rw [toNat_resetDelay_countedDown (by omega)]
      omega
    have hne : (countedDown k s).resetDelay ≠ 0 := by
      intro h
      simp [h] at hleft
    have hstep : step (countedDown k s) = .next (countedDown (k + 1) s) := by
      rw [step_countdown (s := countedDown k s) hr hb hne, resetCountdownStep_empty hleft, countedDown_succ]
    rw [run_add (ih (by omega)), run_succ 0 hstep, run_zero]

/-- After the empty calls, the low-byte read. -/
theorem run_lowVectorRead {k : Nat} (hr : s.isRunning = true) (hb : busBound s = true)
    (hk : k + 2 = s.resetDelay.toNat) : run (k + 1) s = .next (lowVectorRead s) := by
  have htwo : (countedDown k s).resetDelay = 2 := by
    refine BitVec.eq_of_toNat_eq ?_
    rw [toNat_resetDelay_countedDown (by omega), ← hk]
    exact Nat.add_sub_cancel_left k 2
  have hstep : step (countedDown k s) = .next (lowVectorRead s) := by
    rw [step_countdown (s := countedDown k s) hr hb (by rw [htwo]; decide), resetCountdownStep_low htwo]
    rfl
  rw [run_add (run_countedDown hr hb hk.le), run_succ 0 hstep, run_zero]

/-- After the low-byte read, the high-byte read, with which the countdown is over. -/
theorem run_highVectorRead {k : Nat} (hr : s.isRunning = true) (hb : busBound s = true)
    (hk : k + 2 = s.resetDelay.toNat) : run (k + 2) s = .next (highVectorRead (lowVectorRead s)) := by
  have hstep : step (lowVectorRead s) = .next (highVectorRead (lowVectorRead s)) := by
    rw [step_countdown (s := lowVectorRead s) hr hb (by simp [lowVectorRead]), resetCountdownStep_high rfl]
  rw [← Nat.add_assoc k 1 1, run_add (run_lowVectorRead hr hb hk), run_succ 0 hstep, run_zero]

/-- The two reads leave the vector in PC, whatever PC held. -/
theorem highVectorRead_lowVectorRead (s : State) :
    highVectorRead (lowVectorRead s) =
      { busRead (busRead s 0xFFFC) 0xFFFD with
        pc := mkWord (busAnswer (busRead s 0xFFFC) 0xFFFD) (busAnswer s 0xFFFC), resetDelay := 0 } := by
  have hpc (h : Byte) : setHigh (lowVectorRead s).pc h = mkWord h (busAnswer s 0xFFFC) := setHigh_setLow s.pc h _
  rw [highVectorRead, hpc]
  rfl

/-- Settles O3: the empty calls by induction on their number, then the two vector reads. -/
theorem resetCountdownLoadsVector : Obligations.ResetCountdownLoadsVector := by
  unfold Obligations.ResetCountdownLoadsVector
  intro s k hr hb hd low high
  refine ⟨run_countedDown hr hb, fun hk => ?_, fun hk => ?_⟩
  · obtain ⟨n, rfl⟩ : ∃ n, k = n + 1 := ⟨k - 1, by omega⟩
    exact run_lowVectorRead hr hb hk
  · obtain ⟨n, rfl⟩ : ∃ n, k = n + 2 := ⟨k - 2, by omega⟩
    rw [run_highVectorRead hr hb hk, highVectorRead_lowVectorRead]

end Sys2Proof.Proofs
end

section
/-! PROOFS. The model's hook State.withFetchWord (log entry 11): the bytes it places are the table word's, the low one
first, and the step after it fetches that one. -/

namespace Sys2Proof.Proofs

open Sys2Proof.Machine Sys2Proof.Laws

variable {nbits w : Nat}

/-- The lengths of an instruction in bits, as table words have them (R71). -/
abbrev IsTableWidth (nbits : Nat) : Prop := nbits = 8 ∨ nbits = 16 ∨ nbits = 24

/-- Placing bytes leaves an address that is none of theirs. -/
theorem readByte_placeBytes_other (bytes : List Byte) (m : Memory) (addr other : Word)
    (h : ∀ k < bytes.length, other ≠ addr + BitVec.ofNat 16 k) :
    readByte (placeBytes m addr bytes) other.toNat = readByte m other.toNat := by
  induction bytes generalizing m addr with
  | nil => rfl
  | cons b rest ih =>
    have hne : other ≠ addr := by simpa using h 0 (by simp)
    rw [placeBytes, ih _ (addr + 1) fun k hk => ?_, readByte_writeByte_other _ _ _ _ (BitVec.toNat_ne_iff_ne.2 hne)]
    have hk' := h (k + 1) (Nat.succ_lt_succ hk)
    rwa [Nat.add_comm, BitVec.ofNat_add, ← BitVec.add_assoc] at hk'

/-- The first byte placed reads back: fewer than 65536 bytes after it do not wrap round to its address. -/
theorem readByte_placeBytes_head {m : Memory} (hm : Memory.wf m = true) (addr : Word) (b : Byte) {rest : List Byte}
    (hlen : rest.length < 65535) : readByte (placeBytes m addr (b :: rest)) addr.toNat = b := by
  rw [placeBytes, readByte_placeBytes_other rest _ (addr + 1) addr fun k hk => ?_, readByte_writeByte_same _ _ _ hm]
  intro h
  have hzero : 1#16 + BitVec.ofNat 16 k = 0#16 := left_eq_add.1 (h.trans (BitVec.add_assoc addr 1 _))
  have hnat := congrArg BitVec.toNat hzero
  simp only [BitVec.toNat_add, BitVec.toNat_ofNat] at hnat
  omega

/-- A table word is its low byte and two more. -/
theorem exists_tableWordBytes (h : IsTableWidth nbits) (w : Nat) :
    ∃ rest, tableWordBytes nbits w = BitVec.ofNat 8 w :: rest ∧ rest.length = 2 := by
  rcases h with rfl | rfl | rfl
  all_goals exact ⟨_, rfl, rfl⟩

/-- The decoder reads a table word's low byte (R74, R87). -/
theorem decodeTableWord_eq (h : IsTableWidth nbits) (w : Nat) :
    decodeTableWord nbits w = some (decodeOpcode (BitVec.ofNat 8 w)) := by
  obtain ⟨rest, hbytes, -⟩ := exists_tableWordBytes h w
  rw [decodeTableWord, hbytes]
  rfl

/-- The host answers at PC the low byte of the word placed there. -/
theorem busAnswer_withFetchWord {s : State} (hm : Memory.wf s.mem = true) (h : IsTableWidth nbits) (w : Nat) :
    busAnswer (s.withFetchWord nbits w) s.pc = BitVec.ofNat 8 w := by
  obtain ⟨rest, hbytes, hlen⟩ := exists_tableWordBytes h w
  have hmem : (s.withFetchWord nbits w).mem = placeBytes s.mem s.pc (BitVec.ofNat 8 w :: rest) := by
    rw [← hbytes]
    rfl
  rw [busAnswer_of_ram _ _ rfl, hmem]
  exact readByte_placeBytes_head hm s.pc _ (by omega)

/-- Settles O7: the step decodes the byte the host answers at PC, which is the word's low byte, and so does
decodeTableWord. -/
theorem placedInstructionIsRun : Obligations.PlacedInstructionIsRun := by
  unfold Obligations.PlacedInstructionIsRun
  intro s nbits w i hm hn hi
  have hbyte : busAnswer (s.withFetchWord nbits w) s.pc = BitVec.ofNat 8 w := busAnswer_withFetchWord hm hn w
  rw [decodeTableWord_eq hn] at hi
  cases hi
  have hstep := ((stepRunsDecodedInstruction (s.withFetchWord nbits w) ⟨rfl, rfl, rfl⟩).1 rfl).1
  rw [← hbyte]
  exact ⟨hstep, rfl⟩

end Sys2Proof.Proofs
end
